-- ==== Sys2Proof/Word.lean ====
section
/-! DEFINITION. The word types of the block and the three channel names: every cell of a song memory is a byte
(R78), the frequency ROM holds 16-bit words (R76), and there are three channels, stepped in the order 0, 1, 2
(R5, R140). -/

namespace Sys2Proof

/-- One cell of a song memory, one byte of the register image, most registers (R78, R80). -/
abbrev Byte := BitVec 8

/-- A frequency: the frequency accumulator and a word of the frequency ROM (R30, R76). -/
abbrev Word := BitVec 16

/-- The three voices (R5: `N_CHN = 3`); the spec writes `c` for one of them. -/
inductive Chan where
  | c0
  | c1
  | c2
deriving DecidableEq, Repr

/-- The number of a channel, as the image map `7c + k` uses it (R77). -/
def Chan.idx : Chan → Nat
  | .c0 => 0
  | .c1 => 1
  | .c2 => 2

/-- The four table kinds, in the source's order Wave, Pulse, Filter, Speed (R73). -/
inductive Table where
  | wave
  | pulse
  | filter
  | speed
deriving DecidableEq, Repr

/-- The number of a table kind (R73: `WAVE = 0`, `PULSE = 1`, `FILTER = 2`, `SPEED = 3`). -/
def Table.idx : Table → Nat
  | .wave => 0
  | .pulse => 1
  | .filter => 2
  | .speed => 3

/-- The nine byte fields of an instrument record (R72), in the order of R100. -/
inductive InstrField where
  | ad
  | sr
  | ptrWave
  | ptrPulse
  | ptrFilter
  | ptrSpeed
  | vibdelay
  | gatetimer
  | firstwave
deriving DecidableEq, Repr

/-- The place of a field in its record (R100). -/
def InstrField.idx : InstrField → Nat
  | .ad => 0
  | .sr => 1
  | .ptrWave => 2
  | .ptrPulse => 3
  | .ptrFilter => 4
  | .ptrSpeed => 5
  | .vibdelay => 6
  | .gatetimer => 7
  | .firstwave => 8

/-- The four byte fields of a pattern row (R74, R103). -/
inductive RowField where
  | note
  | instr
  | cmd
  | data
deriving DecidableEq, Repr

/-- The place of a field in its row (R74: "in that order"). -/
def RowField.idx : RowField → Nat
  | .note => 0
  | .instr => 1
  | .cmd => 2
  | .data => 3

end Sys2Proof
end

