-- ==== Sys2Proof/Config.lean ====
section
/-! DEFINITION. The parameters of the block (R5, R6) at the values the spec fixes for them, and the default contents
of the frequency ROM (R301); the contents themselves are a parameter, `State.freqRom`. The straps `OPT_REALTIME` and `OPT_PULSE` are tied to 0 (R5, R57): they are constants here and there
is no configuration of the model with either at 1 (U9). Assumption log 3. -/

namespace Sys2Proof.Config

/-- Code of note index 0 in a row's note byte (R6). -/
def noteBase : Byte := 0x60#8

/-- Note-byte code REST (R6). -/
def noteRest : Byte := 0xC0#8

/-- Note-byte code KEY-OFF (R6). -/
def noteKeyoff : Byte := 0xC1#8

/-- Note-byte code KEY-ON (R6). -/
def noteKeyon : Byte := 0xC2#8

/-- Entries of the frequency table (R5: `N_NOTES = 96`). -/
def nNotes : Nat := 96

/-- Pattern slots (R5: `MAX_PATT = 208`): a pattern number at or above it is illegal (R108, R170). -/
def maxPatt : Byte := 208#8

/-- Rows a pattern memory has (R5: `MAX_PATTROWS = 128`). -/
def maxPattRows : Byte := 128#8

/-- The value of a row cursor that has passed its pattern's last row (R6, R29). -/
def pattEnd : Byte := 0xFF#8

/-- Attack/decay byte of hard restart and release (R6). -/
def hrAd : Byte := 0x0F#8

/-- Sustain/release byte of hard restart and release (R6). -/
def hrSr : Byte := 0x00#8

/-- Tick-counter value that reset and Start load (R6). -/
def initTick : Byte := 5#8

/-- Tempo of each channel after reset (R6). -/
def resetTempo : Byte := 5#8

/-- First slot of the funk table after reset (R6). -/
def resetFunk0 : Byte := 8#8

/-- Second slot of the funk table after reset (R6). -/
def resetFunk1 : Byte := 5#8

/-- Master fader after reset and after Start (R6). -/
def resetFader : BitVec 4 := 0xF#4

/-- The strap `OPT_REALTIME`, tied to 0 (R57). -/
def optRealtime : Bool := false

/-- The strap `OPT_PULSE`, tied to 0 (R57). -/
def optPulse : Bool := false

/-- Octaves 0 to 3 of the default frequency ROM (R301). -/
def freqLow : List Word :=
  [0x0117, 0x0127, 0x0139, 0x014B, 0x015F, 0x0174, 0x018A, 0x01A1, 0x01BA, 0x01D4, 0x01F0, 0x020E] ++
  [0x022D, 0x024E, 0x0271, 0x0296, 0x02BE, 0x02E8, 0x0314, 0x0343, 0x0374, 0x03A9, 0x03E1, 0x041C] ++
  [0x045A, 0x049C, 0x04E2, 0x052D, 0x057C, 0x05CF, 0x0628, 0x0685, 0x06E8, 0x0752, 0x07C1, 0x0837] ++
  [0x08B4, 0x0939, 0x09C5, 0x0A5A, 0x0AF7, 0x0B9E, 0x0C4F, 0x0D0A, 0x0DD1, 0x0EA3, 0x0F82, 0x106E]

/-- Octaves 4 to 7 of the default frequency ROM (R301). -/
def freqHigh : List Word :=
  [0x1168, 0x1271, 0x138A, 0x14B3, 0x15EE, 0x173C, 0x189E, 0x1A15, 0x1BA2, 0x1D46, 0x1F04, 0x20DC] ++
  [0x22D0, 0x24E2, 0x2714, 0x2967, 0x2BDD, 0x2E79, 0x313C, 0x3429, 0x3744, 0x3A8D, 0x3E08, 0x41B8] ++
  [0x45A1, 0x49C5, 0x4E28, 0x52CD, 0x57BA, 0x5CF1, 0x6278, 0x6853, 0x6E87, 0x751A, 0x7C10, 0x8371] ++
  [0x8B42, 0x9389, 0x9C4F, 0xA59B, 0xAF74, 0xB9E2, 0xC4F0, 0xD0A6, 0xDD0E, 0xEA33, 0xF820, 0xFFFF]

/-- The default contents of the frequency ROM (R301). -/
def freqDefault : Vector Word 96 := ⟨(freqLow ++ freqHigh).toArray, rfl⟩

end Sys2Proof.Config
end

