-- ==== Sys2Proof/Syntax.lean ====
section
/-! DEFINITION. The instructions of the block: one constructor for each row of the opcode table. An instruction
carries the operand bits the spec says are used; bits a field ignores (R115) are not kept. The channel an
instruction acts for is not part of its encoding: it is the channel being stepped (R9). -/

namespace Sys2Proof

/-- One constructor per row of spec/opcode_table.json. -/
inductive Instr where
  -- note bytes of a pattern row (R102)
  | nRest
  | nKoff
  | nKon
  | nNote (n : Byte)
  | nNone (n : Byte)
  -- pattern commands (R104); `d` is the row's data byte
  | nop (d : Byte)
  | pup (d : Byte)
  | pdn (d : Byte)
  | tpo (d : Byte)
  | vib (d : Byte)
  | sad (d : Byte)
  | ssr (d : Byte)
  | swv (d : Byte)
  | swp (d : Byte)
  | spp (d : Byte)
  | sfp (d : Byte)
  | sfc (d : Byte)
  | sco (d : Byte)
  | smv (d : Byte)
  | fnk (d : Byte)
  | tmp (d : Byte)
  -- first-waveform bytes (R107)
  | fwKeep
  | fwWave (w : Byte)
  | fwGoff
  | fwGon
  -- wave-table entries (R109); `r` is the entry's right byte
  | wKeep (r : Byte)
  | wDelay (n : BitVec 4) (r : Byte)
  | wWave (l r : Byte)
  | wMute (ctl : BitVec 4) (r : Byte)
  | wxNop (r : Byte)
  | wxPup (r : Byte)
  | wxPdn (r : Byte)
  | wxTpo (r : Byte)
  | wxVib (r : Byte)
  | wxSad (r : Byte)
  | wxSsr (r : Byte)
  | wxSwv (r : Byte)
  | wxSwp (r : Byte)
  | wxSpp (r : Byte)
  | wxSfp (r : Byte)
  | wxSfc (r : Byte)
  | wxSco (r : Byte)
  | wxSmv (r : Byte)
  | wxFnk (r : Byte)
  | wJump (r : Byte)
  -- pulse-table entries (R110)
  | pHold (r : Byte)
  | pMod (n : BitVec 7) (r : Byte)
  | pSet (hi : BitVec 4) (lo : Byte)
  | pJump (r : Byte)
  -- filter-table entries (R111)
  | fCut (r : Byte)
  | fMod (n : BitVec 7) (r : Byte)
  | fType (ty : BitVec 3) (ctl : Byte)
  | fJump (r : Byte)
  -- readings of a speed-table entry (R112)
  | sSlide (l r : Byte)
  | sVib (l r : Byte)
  | sFunk (l r : Byte)
  -- note adjustments (R113)
  | naKeep
  | naRel (o : BitVec 7)
  | naAbs (i : BitVec 7)
  -- transport actions (R114)
  | aNone
  | aStart
  | aPause
  | aStop
  -- host operations (R114)
  | hTick
  | hAction (a : BitVec 2)
  | hTestnote (n ins : Byte) (ch : BitVec 2)
  | hRelease (ch : BitVec 2)
  | hActive (ch : BitVec 2) (b : Bool)
  | hSetstart (ch : BitVec 2) (order row : Byte)
  | hSetloop (b : Bool)
deriving DecidableEq, Repr

/-- A host operation as the host names it at the port (R114: "by name"): host operations have no bit encoding
(R118), so this is what the block is given in place of a word. -/
inductive HostCall where
  | playRoutine
  | setAction (a : BitVec 2)
  | playTestNote (n ins : Byte) (ch : BitVec 2)
  | releaseNote (ch : BitVec 2)
  | setChannelActive (ch : BitVec 2) (b : Bool)
  | setStart (ch : BitVec 2) (order row : Byte)
  | setLoop (b : Bool)
deriving DecidableEq, Repr

end Sys2Proof
end

