-- ==== Sys2Proof/WellFormed.lean ====
section
/-! DEFINITION. Which instructions an encoding can stand for: the operand ranges of the classes of R102, R107, R109,
R110, R111 and R113. Every other operand value is legal (R115). -/

namespace Sys2Proof

/-- The note byte lies in the 96-note range (R102, class `N.NOTE`). -/
def inNoteRange (n : Byte) : Bool :=
  decide (Config.noteBase.toNat ≤ n.toNat) && decide (n.toNat < Config.noteBase.toNat + Config.nNotes)

/-- The note byte is one of the three distinguished codes (R102). -/
def isNoteSentinel (n : Byte) : Bool :=
  n == Config.noteRest || n == Config.noteKeyoff || n == Config.noteKeyon

/-- The operand ranges of the classes that a range selects. -/
def Instr.wf : Instr → Bool
  | .nNote n => !isNoteSentinel n && inNoteRange n
  | .nNone n => !isNoteSentinel n && !inNoteRange n
  | .fwWave w => decide (0x01#8 ≤ w) && decide (w ≤ 0xFD#8)
  | .wDelay n _ => n != 0#4
  | .wWave l _ => decide (0x10#8 ≤ l) && decide (l ≤ 0xDF#8)
  | .pMod n _ => n != 0#7
  | .fMod n _ => n != 0#7
  | .naAbs i => i != 0#7
  | .nRest | .nKoff | .nKon => true
  | .nop _ | .pup _ | .pdn _ | .tpo _ | .vib _ | .sad _ | .ssr _ | .swv _ => true
  | .swp _ | .spp _ | .sfp _ | .sfc _ | .sco _ | .smv _ | .fnk _ | .tmp _ => true
  | .fwKeep | .fwGoff | .fwGon => true
  | .wKeep _ | .wMute _ _ | .wJump _ => true
  | .wxNop _ | .wxPup _ | .wxPdn _ | .wxTpo _ | .wxVib _ | .wxSad _ | .wxSsr _ | .wxSwv _ => true
  | .wxSwp _ | .wxSpp _ | .wxSfp _ | .wxSfc _ | .wxSco _ | .wxSmv _ | .wxFnk _ => true
  | .pHold _ | .pSet _ _ | .pJump _ | .fCut _ | .fType _ _ | .fJump _ => true
  | .sSlide _ _ | .sVib _ _ | .sFunk _ _ | .naKeep | .naRel _ => true
  | .aNone | .aStart | .aPause | .aStop => true
  | .hTick | .hAction _ | .hTestnote _ _ _ | .hRelease _ | .hActive _ _ => true
  | .hSetstart _ _ _ | .hSetloop _ => true

end Sys2Proof
end

