-- ==== Sys2Proof/Decode.lean ====
section
/-! DEFINITION. Decoding and encoding (30_encoding.md). What a byte means depends on the memory it stands in (R118:
"`format` names the format and the selecting field"), so the decoder takes the format; within a format every byte
value has a meaning (R115), and the only word it rejects is one with too few bytes. -/

namespace Sys2Proof

/-- The formats of R100 and R118 that have bits. The three readings of a speed-table entry are formats of their own,
because the reading command chooses between them (R112). -/
inductive Format where
  | note
  | cmd
  | firstwave
  | wave
  | pulse
  | filter
  | slide
  | vibrato
  | funk
  | noteadj
  | action
deriving DecidableEq, Repr

/-- How many bytes an instruction of the format has: a command is its code byte and the row's data byte (R103), a
table entry is `left` and `right` (R100). -/
def Format.size : Format → Nat
  | .note | .firstwave | .noteadj | .action => 1
  | .cmd | .wave | .pulse | .filter | .slide | .vibrato | .funk => 2

/-- Why a word is rejected. -/
inductive DecodeRefusal where
  /-- The word has fewer bytes than an instruction of the format (safe: the block never fetches such a word). -/
  | tooShort (f : Format)
deriving DecidableEq, Repr

/-- Note byte (R102): the three distinguished codes are tested first, then the note range. -/
def decodeNote (n : Byte) : Instr :=
  if n = Config.noteRest then .nRest
  else if n = Config.noteKeyoff then .nKoff
  else if n = Config.noteKeyon then .nKon
  else if inNoteRange n then .nNote n
  else .nNone n

/-- Command code and data byte (R103, R104): bits 7:4 of the code byte are ignored. -/
def decodeCmd (b d : Byte) : Instr :=
  match (b.setWidth 4).toNat with
  | 0 => .nop d
  | 1 => .pup d
  | 2 => .pdn d
  | 3 => .tpo d
  | 4 => .vib d
  | 5 => .sad d
  | 6 => .ssr d
  | 7 => .swv d
  | 8 => .swp d
  | 9 => .spp d
  | 10 => .sfp d
  | 11 => .sfc d
  | 12 => .sco d
  | 13 => .smv d
  | 14 => .fnk d
  | _ => .tmp d

/-- First-waveform byte (R107). -/
def decodeFirstwave (w : Byte) : Instr :=
  if w = 0x00#8 then .fwKeep
  else if w = 0xFE#8 then .fwGoff
  else if w = 0xFF#8 then .fwGon
  else .fwWave w

/-- The command a wave-table entry carries (R116): `k` is the low nibble of `left`, 0x0 to 0xE. -/
def decodeEmbedded (k : BitVec 4) (r : Byte) : Instr :=
  match k.toNat with
  | 0 => .wxNop r
  | 1 => .wxPup r
  | 2 => .wxPdn r
  | 3 => .wxTpo r
  | 4 => .wxVib r
  | 5 => .wxSad r
  | 6 => .wxSsr r
  | 7 => .wxSwv r
  | 8 => .wxSwp r
  | 9 => .wxSpp r
  | 10 => .wxSfp r
  | 11 => .wxSfc r
  | 12 => .wxSco r
  | 13 => .wxSmv r
  | _ => .wxFnk r

/-- Wave-table entry (R109), selected by `left`. -/
def decodeWave (l r : Byte) : Instr :=
  if l = 0x00#8 then .wKeep r
  else if l < 0x10#8 then .wDelay (l.setWidth 4) r
  else if l < 0xE0#8 then .wWave l r
  else if l < 0xF0#8 then .wMute (l.setWidth 4) r
  else if l = 0xFF#8 then .wJump r
  else decodeEmbedded (l.setWidth 4) r

/-- Pulse-table entry (R110): bits 6:4 of a set entry's `left` are ignored. -/
def decodePulse (l r : Byte) : Instr :=
  if l = 0x00#8 then .pHold r
  else if l < 0x80#8 then .pMod (l.setWidth 7) r
  else if l = 0xFF#8 then .pJump r
  else .pSet (l.setWidth 4) r

/-- Filter-table entry (R111): bits 3:0 of a type entry's `left` are ignored. -/
def decodeFilter (l r : Byte) : Instr :=
  if l = 0x00#8 then .fCut r
  else if l < 0x80#8 then .fMod (l.setWidth 7) r
  else if l = 0xFF#8 then .fJump r
  else .fType (l.extractLsb' 4 3) r

/-- Note adjustment (R113): 0x80 keeps, below is relative, above is absolute. -/
def decodeNoteAdj (r : Byte) : Instr :=
  if r = 0x80#8 then .naKeep
  else if r < 0x80#8 then .naRel (r.setWidth 7)
  else .naAbs (r.setWidth 7)

/-- Action (R114): the two low bits. -/
def decodeAction (a : Byte) : Instr :=
  match (a.setWidth 2).toNat with
  | 0 => .aNone
  | 1 => .aStart
  | 2 => .aPause
  | _ => .aStop

/-- The decoder: an instruction of the format from the bytes listed, or a refusal by name. It reads the format's
bytes and no more. -/
def decode (f : Format) (bytes : List Byte) : Except DecodeRefusal Instr :=
  match f, bytes with
  | .note, b :: _ => .ok (decodeNote b)
  | .firstwave, b :: _ => .ok (decodeFirstwave b)
  | .noteadj, b :: _ => .ok (decodeNoteAdj b)
  | .action, b :: _ => .ok (decodeAction b)
  | .cmd, b :: d :: _ => .ok (decodeCmd b d)
  | .wave, l :: r :: _ => .ok (decodeWave l r)
  | .pulse, l :: r :: _ => .ok (decodePulse l r)
  | .filter, l :: r :: _ => .ok (decodeFilter l r)
  | .slide, l :: r :: _ => .ok (.sSlide l r)
  | .vibrato, l :: r :: _ => .ok (.sVib l r)
  | .funk, l :: r :: _ => .ok (.sFunk l r)
  | f, _ => .error (.tooShort f)

/-- A host operation by its name (R114). -/
def decodeHost : HostCall → Instr
  | .playRoutine => .hTick
  | .setAction a => .hAction a
  | .playTestNote n ins ch => .hTestnote n ins ch
  | .releaseNote ch => .hRelease ch
  | .setChannelActive ch b => .hActive ch b
  | .setStart ch order row => .hSetstart ch order row
  | .setLoop b => .hSetloop b

/-- The format an instruction's word stands in; none for the host operations, which have no word (R118). -/
def Instr.format : Instr → Option Format
  | .nRest | .nKoff | .nKon | .nNote _ | .nNone _ => some .note
  | .nop _ | .pup _ | .pdn _ | .tpo _ | .vib _ | .sad _ | .ssr _ | .swv _ => some .cmd
  | .swp _ | .spp _ | .sfp _ | .sfc _ | .sco _ | .smv _ | .fnk _ | .tmp _ => some .cmd
  | .fwKeep | .fwWave _ | .fwGoff | .fwGon => some .firstwave
  | .wKeep _ | .wDelay _ _ | .wWave _ _ | .wMute _ _ | .wJump _ => some .wave
  | .wxNop _ | .wxPup _ | .wxPdn _ | .wxTpo _ | .wxVib _ | .wxSad _ | .wxSsr _ | .wxSwv _ => some .wave
  | .wxSwp _ | .wxSpp _ | .wxSfp _ | .wxSfc _ | .wxSco _ | .wxSmv _ | .wxFnk _ => some .wave
  | .pHold _ | .pMod _ _ | .pSet _ _ | .pJump _ => some .pulse
  | .fCut _ | .fMod _ _ | .fType _ _ | .fJump _ => some .filter
  | .sSlide _ _ => some .slide
  | .sVib _ _ => some .vibrato
  | .sFunk _ _ => some .funk
  | .naKeep | .naRel _ | .naAbs _ => some .noteadj
  | .aNone | .aStart | .aPause | .aStop => some .action
  | .hTick | .hAction _ | .hTestnote _ _ _ | .hRelease _ | .hActive _ _ => none
  | .hSetstart _ _ _ | .hSetloop _ => none

/-- The encoder: the bytes of a well-formed instruction, ignored bits 0. A host operation has none (R118). -/
def encode : Instr → List Byte
  | .nRest => [Config.noteRest]
  | .nKoff => [Config.noteKeyoff]
  | .nKon => [Config.noteKeyon]
  | .nNote n | .nNone n => [n]
  | .nop d => [0x0#8, d]
  | .pup d => [0x1#8, d]
  | .pdn d => [0x2#8, d]
  | .tpo d => [0x3#8, d]
  | .vib d => [0x4#8, d]
  | .sad d => [0x5#8, d]
  | .ssr d => [0x6#8, d]
  | .swv d => [0x7#8, d]
  | .swp d => [0x8#8, d]
  | .spp d => [0x9#8, d]
  | .sfp d => [0xA#8, d]
  | .sfc d => [0xB#8, d]
  | .sco d => [0xC#8, d]
  | .smv d => [0xD#8, d]
  | .fnk d => [0xE#8, d]
  | .tmp d => [0xF#8, d]
  | .fwKeep => [0x00#8]
  | .fwWave w => [w]
  | .fwGoff => [0xFE#8]
  | .fwGon => [0xFF#8]
  | .wKeep r => [0x00#8, r]
  | .wDelay n r => [n.setWidth 8, r]
  | .wWave l r => [l, r]
  | .wMute ctl r => [0xE0#8 ||| ctl.setWidth 8, r]
  | .wxNop r => [0xF0#8, r]
  | .wxPup r => [0xF1#8, r]
  | .wxPdn r => [0xF2#8, r]
  | .wxTpo r => [0xF3#8, r]
  | .wxVib r => [0xF4#8, r]
  | .wxSad r => [0xF5#8, r]
  | .wxSsr r => [0xF6#8, r]
  | .wxSwv r => [0xF7#8, r]
  | .wxSwp r => [0xF8#8, r]
  | .wxSpp r => [0xF9#8, r]
  | .wxSfp r => [0xFA#8, r]
  | .wxSfc r => [0xFB#8, r]
  | .wxSco r => [0xFC#8, r]
  | .wxSmv r => [0xFD#8, r]
  | .wxFnk r => [0xFE#8, r]
  | .wJump r => [0xFF#8, r]
  | .pHold r => [0x00#8, r]
  | .pMod n r => [n.setWidth 8, r]
  | .pSet hi lo => [0x80#8 ||| hi.setWidth 8, lo]
  | .pJump r => [0xFF#8, r]
  | .fCut r => [0x00#8, r]
  | .fMod n r => [n.setWidth 8, r]
  | .fType ty ctl => [0x80#8 ||| (ty.setWidth 8 <<< 4), ctl]
  | .fJump r => [0xFF#8, r]
  | .sSlide l r | .sVib l r | .sFunk l r => [l, r]
  | .naKeep => [0x80#8]
  | .naRel o => [o.setWidth 8]
  | .naAbs i => [0x80#8 ||| i.setWidth 8]
  | .aNone => [0x00#8]
  | .aStart => [0x01#8]
  | .aPause => [0x02#8]
  | .aStop => [0x03#8]
  | .hTick | .hAction _ | .hTestnote _ _ _ | .hRelease _ | .hActive _ _ => []
  | .hSetstart _ _ _ | .hSetloop _ => []

/-- The encoder's counterpart for host operations: the name and operands at the port (R114). -/
def encodeHost : Instr → Option HostCall
  | .hTick => some .playRoutine
  | .hAction a => some (.setAction a)
  | .hTestnote n ins ch => some (.playTestNote n ins ch)
  | .hRelease ch => some (.releaseNote ch)
  | .hActive ch b => some (.setChannelActive ch b)
  | .hSetstart ch order row => some (.setStart ch order row)
  | .hSetloop b => some (.setLoop b)
  | _ => none

/-- DESIGN CHOICE (assumption log 5): the format that a bare table word is read in. The bits of a word do not say
which memory it stands in, so one byte value is a word of several rows; each value is given to one of them. -/
def tableFormat (nbits w : Nat) : Option Format :=
  let b := w % 256
  let l := w / 256 % 256
  if nbits = 8 then
    if b < 16 then some .cmd
    else if b = 0x80 then some .noteadj
    else if 0xFE ≤ b then some .firstwave
    else some .note
  else if nbits = 16 then
    if l = 0x80 then some .pulse else some .wave
  else none

/-- The bytes of a table word of a format, in the order `decode` reads them: a byte format's one byte (with a zero
data byte after a command code), or `left` (bits 15:8) and `right` (bits 7:0) of a table entry (R100). -/
def tableBytes (f : Format) (w : Nat) : List Byte :=
  match f with
  | .note | .firstwave | .noteadj | .action => [BitVec.ofNat 8 w]
  | .cmd => [BitVec.ofNat 8 w, BitVec.ofNat 8 (w / 256)]
  | .wave | .pulse | .filter | .slide | .vibrato | .funk => [BitVec.ofNat 8 (w / 256), BitVec.ofNat 8 w]

/-- The instruction the decoder reads from a word numbered as the opcode table numbers it. -/
def decodeTableWord (nbits w : Nat) : Option Instr :=
  match tableFormat nbits w with
  | none => none
  | some f => (decode f (tableBytes f w)).toOption

end Sys2Proof
end

