-- ==== Sys2Proof/Machine/State.lean ====
section
/-! DEFINITION. The state of the block as plain data (10_state.md), the song memories (20_memory.md), what the host
has asked for and not yet been served, the reasons a step can stop, and reset (R63, R360). -/

namespace Sys2Proof.Machine

/-- The registers kept once per channel: the 28 of R21 to R44, in the order of their rules, and the two start-position
registers the host writes per channel (R54). -/
structure Channel where
  /-- Transpose, two's complement (R21). -/
  trans : Byte
  /-- Current instrument slot (R22). -/
  instr : BitVec 6
  /-- Current note, as an index relative to the note base (R23). -/
  note : Byte
  /-- Note index last applied by the wave table (R24). -/
  lastnote : BitVec 7
  /-- A new note is pending (R25). -/
  nnPend : Bool
  /-- The pending note, already transposed (R25). -/
  newnote : Byte
  /-- Index of the next order row the sequencer reads (R26). -/
  songptr : Byte
  /-- Index of the order row being played (R27). -/
  curOrder : Byte
  /-- Pattern being played (R28). -/
  pattnum : Byte
  /-- Row the next fetch reads, or the end marker (R29). -/
  pattrow : Byte
  /-- Frequency accumulator (R30). -/
  freq : Word
  /-- Gate byte, an AND mask (R31). -/
  gate : Byte
  /-- Waveform byte (R32). -/
  wave : Byte
  /-- Pulse-width accumulator (R33). -/
  pulse : BitVec 12
  /-- Wave-table cursor, 0 = inactive (R34). -/
  wavePtr : Byte
  /-- Delay counter of the wave cursor (R34). -/
  wavetime : Byte
  /-- Pulse-table cursor, 0 = inactive (R35). -/
  pulsePtr : Byte
  /-- Modulation ticks the pulse entry still runs (R35). -/
  pulsetime : Byte
  /-- Vibrato phase (R36). -/
  vibtime : Byte
  /-- Vibrato delay (R37). -/
  vibdelay : Byte
  /-- Latched command (R38). -/
  command : BitVec 4
  /-- Operand of the latched command (R38). -/
  cmddata : Byte
  /-- Pending command (R39). -/
  newcommand : BitVec 4
  /-- Data byte of the pending command (R39). -/
  newcmddata : Byte
  /-- Tick counter (R41). -/
  tick : Byte
  /-- Tempo (R42). -/
  tempo : Byte
  /-- Mute flag (R43). -/
  mute : Bool
  /-- Gate-timer compare value (R44). -/
  gatetimer : BitVec 6
  /-- `START_ORDER[c]` (R54). -/
  startOrder : Byte
  /-- `START_ROW[c]` (R54). -/
  startRow : Byte
deriving DecidableEq, Repr

/-- THE MODEL'S OWN: where in a tick the block stands. `idle` is between ticks, the only place the host and the sink
see (R80, R85); the others are the phases of R140 and R150, with the note start and the dispatch of tick 0 named
separately because each fetches an instruction there (assumption log 2). -/
inductive Phase where
  | idle
  | actions
  | filter
  | sharedOut
  | enter
  | tickN
  | tick0
  | noteStart
  | dispatch
  | waveExec
  | tickNEffects
  | pulseExec
  | getNewNotes
  | nextChannel
deriving DecidableEq, Repr

/-- What the host can ask of the block between ticks (R64, R71): a host operation, a store to one song-memory cell, or
a reset. -/
inductive Request where
  | call (h : HostCall)
  | store (addr : Nat) (v : Byte)
  | reset
deriving DecidableEq, Repr

/-- The song memories as a list of cells; `Memory.wf` in Machine/Ops.lean is its canonical form (R70, R90). -/
abbrev Memory := List Host.Cell

/-- Everything the spec gives the block, and three fields of the model's own (the last three). The frequency ROM is
a constant of the block (R361): its contents are the parameter `F` (R301), carried here so that every statement is about
every `F`; no step writes it. -/
structure State where
  /-- Registers of channel 0 (R21 to R44, R54). -/
  ch0 : Channel
  /-- Registers of channel 1. -/
  ch1 : Channel
  /-- Registers of channel 2. -/
  ch2 : Channel
  /-- Filter-table cursor, 0 = inactive (R45). -/
  filtPtr : Byte
  /-- Modulation ticks the filter entry still runs (R45). -/
  filtTime : Byte
  /-- Filter type, bits 6:4 (R46). -/
  filtType : Byte
  /-- Filter cutoff (R47). -/
  filtCutoff : Byte
  /-- Filter control (R48). -/
  filtCtrl : Byte
  /-- Master fader (R49). -/
  fader : BitVec 4
  /-- Funk-tempo slot 0 (R50). -/
  funk0 : Byte
  /-- Funk-tempo slot 1 (R50). -/
  funk1 : Byte
  /-- `PLAYING` (R51, R340). -/
  playing : Bool
  /-- `ACTION`, the transport mailbox (R52). -/
  action : BitVec 2
  /-- `FATAL`, the sticky cause bits (R53). -/
  fatal : BitVec 7
  /-- `LOOP_PATTERN` (R55). -/
  loopPattern : Bool
  /-- `REG[0..24]`, the register image (R56, R77). -/
  reg : Vector Byte 25
  /-- The song memories (R70 to R75). -/
  mem : Memory
  /-- `FROM[0..95]`, the contents `F` of the frequency ROM (R6, R76, R301). -/
  freqRom : Vector Word 96
  /-- THE MODEL'S OWN: position within a tick. -/
  phase : Phase
  /-- THE MODEL'S OWN: the channel being stepped. -/
  chan : Chan
  /-- THE MODEL'S OWN: the host's requests not yet served, oldest first. -/
  requests : List Request
deriving DecidableEq, Repr

/-- Why the machine stops with a fault. -/
inductive Fault where
  /-- Raised by the host's store request to an address that no song memory has (R70); safe, because no rule gives
  such a store an effect. -/
  | noSuchCell (addr : Nat)
deriving DecidableEq, Repr

/-- Why the machine refuses. -/
inductive Refusal where
  /-- Raised by an arm of `exec` whose instruction has no meaning yet; safe. -/
  | notModelled (mnemonic : String)
  /-- Raised by a host operation issued while a tick is in progress, which R85 forbids the host and U1 treats as
  "refuse"; safe. -/
  | duringTick
  /-- Raised by a step whose fetched word the decoder rejects; safe, and never reached, since every fetch reads a
  whole word. -/
  | undecoded
deriving DecidableEq, Repr

/-- A channel after reset (R63). -/
def Channel.reset : Channel where
  trans := 0x00#8
  instr := 1#6
  note := 0x00#8
  lastnote := 0#7
  nnPend := false
  newnote := 0x00#8
  songptr := 0x00#8
  curOrder := 0x00#8
  pattnum := 0x00#8
  pattrow := Config.pattEnd
  freq := 0x0000#16
  gate := 0xFE#8
  wave := 0x00#8
  pulse := 0x000#12
  wavePtr := 0x00#8
  wavetime := 0x00#8
  pulsePtr := 0x00#8
  pulsetime := 0x00#8
  vibtime := 0x00#8
  vibdelay := 0x00#8
  command := 0#4
  cmddata := 0x00#8
  newcommand := 0#4
  newcmddata := 0x00#8
  tick := Config.initTick
  tempo := Config.resetTempo
  mute := false
  gatetimer := 0#6
  startOrder := 0x00#8
  startRow := 0x00#8

/-- The machine right after reset: every register as in the table of R63. The song memories are not reset by the
block (R361); here nothing has been written to them yet. The frequency ROM holds the default `F` of R301. -/
def State.reset : State where
  ch0 := Channel.reset
  ch1 := Channel.reset
  ch2 := Channel.reset
  filtPtr := 0x00#8
  filtTime := 0x00#8
  filtType := 0x00#8
  filtCutoff := 0x00#8
  filtCtrl := 0x00#8
  fader := Config.resetFader
  funk0 := Config.resetFunk0
  funk1 := Config.resetFunk1
  playing := false
  action := 0#2
  fatal := 0#7
  loopPattern := false
  reg := Vector.replicate 25 0x00#8
  mem := []
  freqRom := Config.freqDefault
  phase := .idle
  chan := .c0
  requests := []

end Sys2Proof.Machine
end

