-- ==== Sys2Proof/Machine/Ops.lean ====
section
/-! DEFINITION. The named operations over registers, song memories and the register image, the one exception
primitive of the block (`Fatal`, R331), and the procedures several instructions share: the release, the sequencer
and the cursor loads. -/

namespace Sys2Proof.Machine

/-! ## Outcomes -/

/-- Go on from a next state; a fault or a refusal stays as it is. -/
def onNext (f : State → State) : Host.Outcome State Fault Refusal → Host.Outcome State Fault Refusal
  | .next s => .next (f s)
  | .fault r => .fault r
  | .refused r => .refused r

/-- The state an instruction executed inside a tick leaves: a tick never stops (R320: "It never fails"), so an
instruction with no next state would leave the state alone. -/
def settled (s : State) : Host.Outcome State Fault Refusal → State
  | .next t => t
  | .fault _ => s
  | .refused _ => s

/-! ## Channels -/

/-- The registers of a channel (R9: `st[c]`). -/
def State.ch (s : State) : Chan → Channel
  | .c0 => s.ch0
  | .c1 => s.ch1
  | .c2 => s.ch2

/-- Replace the registers of a channel. -/
def State.setCh (s : State) (c : Chan) (x : Channel) : State :=
  match c with
  | .c0 => { s with ch0 := x }
  | .c1 => { s with ch1 := x }
  | .c2 => { s with ch2 := x }

/-- Update the registers of a channel. -/
def State.modCh (s : State) (c : Chan) (f : Channel → Channel) : State := s.setCh c (f (s.ch c))

/-- The registers of the channel being stepped. -/
def State.cur (s : State) : Channel := s.ch s.chan

/-- Update the registers of the channel being stepped. -/
def State.modCur (s : State) (f : Channel → Channel) : State := s.modCh s.chan f

/-- Transfer to a phase (R9: `goto`). -/
def State.goto (s : State) (p : Phase) : State := { s with phase := p }

/-- The channel a 2-bit channel argument names; 3 names none (R114, U21). -/
def chanOf (ch : BitVec 2) : Option Chan :=
  if ch = 0#2 then some .c0 else if ch = 1#2 then some .c1 else if ch = 2#2 then some .c2 else none

/-! ## The register image -/

/-- The image byte `7c + k` (R77). -/
def regIdx (c : Chan) (k : Fin 7) : Fin 25 :=
  ⟨7 * c.idx + k.val, by have := k.isLt; cases c <;> simp only [Chan.idx] <;> omega⟩

/-- Read a byte of the image; the sink and the host do this, the engine never does (R9, R56). -/
def State.regAt (s : State) (a : Fin 25) : Byte := s.reg[a.val]

/-- `REG[a] <- v` (R9). -/
def State.setReg (s : State) (a : Fin 25) (v : Byte) : State := { s with reg := s.reg.set a.val v a.isLt }

/-- Write a channel's attack/decay and sustain/release bytes (R77: image bytes `7c+5` and `7c+6`). -/
def setEnvelope (c : Chan) (ad sr : Byte) (s : State) : State := (s.setReg (regIdx c 5) ad).setReg (regIdx c 6) sr

/-! ## The song memories

DESIGN CHOICE (assumption log 1): the spec gives each space its own index and no flat address (R70); the list of
cells needs one address for each cell, and the places below are the model's. -/

/-- What a cell nothing has written reads as: DESIGN CHOICE (assumption log 4). -/
def Memory.unlisted : Byte := 0x00#8

/-- Read one cell. -/
def Memory.read : Memory → Nat → Byte
  | [], _ => Memory.unlisted
  | (b, v) :: m, a => if b = a then v else Memory.read m a

/-- Write one cell, keeping the canonical form. -/
def Memory.write : Memory → Nat → Byte → Memory
  | [], a, v => if v = Memory.unlisted then [] else [(a, v)]
  | (b, x) :: m, a, v =>
    if a < b then (if v = Memory.unlisted then (b, x) :: m else (a, v) :: (b, x) :: m)
    else if a = b then (if v = Memory.unlisted then m else (a, v) :: m)
    else (b, x) :: Memory.write m a v

/-- Address of a field of an instrument record (R72). -/
def instrAddr (i : BitVec 6) (f : InstrField) : Nat := 16 * i.toNat + f.idx

/-- Address of the left byte at index `p - 1` of a table (R73: `LEFT[k][p - 1]`). -/
def leftAddr (k : Table) (p : Byte) : Nat := 0x400 + 512 * k.idx + (p - 1#8).toNat

/-- Address of the right byte at index `p - 1` of a table (R73). -/
def rightAddr (k : Table) (p : Byte) : Nat := 0x500 + 512 * k.idx + (p - 1#8).toNat

/-- Address of the transpose byte of an order row (R75). -/
def orderTransAddr (c : Chan) (i : Byte) : Nat := 0xC00 + 512 * c.idx + 2 * i.toNat

/-- Address of the pattern byte of an order row (R75). -/
def orderPattAddr (c : Chan) (i : Byte) : Nat := 0xC01 + 512 * c.idx + 2 * i.toNat

/-- Address of `SONG_LEN` (R75). -/
def songLenAddr : Nat := 0x1200

/-- Address of `SONG_LOOP` (R75). -/
def songLoopAddr : Nat := 0x1201

/-- Address of `PATT_LEN[p]` (R74). -/
def pattLenAddr (p : Byte) : Nat := 0x1300 + p.toNat

/-- Address of a field of a pattern row (R74). -/
def pattAddr (p r : Byte) (f : RowField) : Nat := 0x20000 + 512 * p.toNat + 4 * r.toNat + f.idx

/-- The addresses at which the spec gives the block a cell: 64 instrument records of nine bytes, four tables of two
sides of 255 bytes, three order lists of 255 rows, the two song registers, 208 pattern lengths and 208 patterns of 128
rows (R5, R70). -/
def Memory.mapped (a : Nat) : Bool :=
  (decide (a < 0x400) && decide (a % 16 < 9)) ||
  (decide (0x400 ≤ a) && decide (a < 0xC00) && decide (a % 256 < 255)) ||
  (decide (0xC00 ≤ a) && decide (a < 0x1200) && decide (a % 512 < 510)) ||
  (decide (0x1200 ≤ a) && decide (a < 0x1202)) ||
  (decide (0x1300 ≤ a) && decide (a < 0x1300 + 208)) ||
  (decide (0x20000 ≤ a) && decide (a < 0x20000 + 208 * 512))

/-- The canonical form from a lowest address on: addresses strictly rising, each one a cell of the block, no entry
equal to what an unlisted address reads as. -/
def Memory.wfFrom : Nat → Memory → Bool
  | _, [] => true
  | lo, (a, v) :: m => decide (lo ≤ a) && v != Memory.unlisted && Memory.mapped a && Memory.wfFrom (a + 1) m

/-- The canonical form of the song memories. -/
def Memory.wf (m : Memory) : Bool := Memory.wfFrom 0 m

/-- `INSTR[i].f` (R9). -/
def State.instrByte (s : State) (i : BitVec 6) (f : InstrField) : Byte := Memory.read s.mem (instrAddr i f)

/-- `L(k, p)` (R9, R73). -/
def State.left (s : State) (k : Table) (p : Byte) : Byte := Memory.read s.mem (leftAddr k p)

/-- `Rt(k, p)` (R9, R73). -/
def State.right (s : State) (k : Table) (p : Byte) : Byte := Memory.read s.mem (rightAddr k p)

/-- `ORDER[c][i].trans` (R9, R75). -/
def State.orderTrans (s : State) (c : Chan) (i : Byte) : Byte := Memory.read s.mem (orderTransAddr c i)

/-- `ORDER[c][i].patt` (R9, R75). -/
def State.orderPatt (s : State) (c : Chan) (i : Byte) : Byte := Memory.read s.mem (orderPattAddr c i)

/-- `SONG_LEN` (R75). -/
def State.songLen (s : State) : Byte := Memory.read s.mem songLenAddr

/-- `SONG_LOOP` (R75). -/
def State.songLoop (s : State) : Byte := Memory.read s.mem songLoopAddr

/-- `PATT_LEN[p]` (R74). -/
def State.pattLen (s : State) (p : Byte) : Byte := Memory.read s.mem (pattLenAddr p)

/-- `PATT[p][r].f` (R9, R74). -/
def State.pattByte (s : State) (p r : Byte) (f : RowField) : Byte := Memory.read s.mem (pattAddr p r f)

/-- The entry under a table address is a jump: its `left` is 0xFF (R109, R110, R111). -/
def State.isJumpAt (s : State) (k : Table) (p : Byte) : Bool := s.left k p == 0xFF#8

/-! ## Taking an exception: `Fatal` -/

/-- The seven fatal conditions (R330). -/
inductive Cause where
  | illegalPattern
  | gatetimerExceedsTick
  | jumpIntoJumpWave
  | jumpIntoJumpPulse
  | jumpIntoJumpFilter
  | illegalWaveCommand
  | emptySong
deriving DecidableEq, Repr

/-- The bit of `FATAL` a cause sets: bit `k - 1` for code `k` (R330). -/
def causeBit : Cause → BitVec 7
  | .illegalPattern => 0x01#7
  | .gatetimerExceedsTick => 0x02#7
  | .jumpIntoJumpWave => 0x04#7
  | .jumpIntoJumpPulse => 0x08#7
  | .jumpIntoJumpFilter => 0x10#7
  | .illegalWaveCommand => 0x20#7
  | .emptySong => 0x40#7

/-- `Fatal(k)` (R331): set the sticky bit of the cause and post Stop in the mailbox, nothing else. The caller goes on
with its next statement. There is no saved context and no return (R335, R336): the Stop is taken at the top of the
next tick, and playback resumes only by Start, which clears `FATAL` (`startSong` in Machine/Action.lean). -/
def raiseFatal (k : Cause) (s : State) : State := { s with fatal := s.fatal ||| causeBit k, action := 3#2 }

/-- Raise a cause when a condition holds. -/
def raiseFatalIf (b : Bool) (k : Cause) (s : State) : State := if b then raiseFatal k s else s

/-! ## Shared procedures -/

/-- `Release(c)` (R143): gate off, fast envelope release, pending note and both commands cleared. -/
def release (c : Chan) (s : State) : State :=
  setEnvelope c Config.hrAd Config.hrSr
    (s.modCh c fun x =>
      { x with gate := 0xFE#8, nnPend := false, command := 0#4, cmddata := 0x00#8, newcommand := 0#4,
               newcmddata := 0x00#8 })

/-- The order row that the list wraps to (R170): `SONG_LOOP` if it is below `SONG_LEN`, else 0. -/
def orderWrap (s : State) : Byte := if s.songLoop < s.songLen then s.songLoop else 0x00#8

/-- The order row the next sequencer run of a channel reads (R170). -/
def orderIndex (c : Chan) (s : State) : Byte :=
  if s.songLen ≤ (s.ch c).songptr then orderWrap s else (s.ch c).songptr

/-- The pattern number of that order row is illegal (R108, R170). -/
def orderIllegal (c : Chan) (s : State) : Bool := decide (Config.maxPatt ≤ s.orderPatt c (orderIndex c s))

/-- `Sequencer(c)` (R170): read the order row, advance, wrap, and load the pattern; an illegal pattern number is fatal
and pattern 0 is used. -/
def sequencer (c : Chan) (s : State) : State :=
  let i := orderIndex c s
  let nxt := i + 1#8
  raiseFatalIf (orderIllegal c s) .illegalPattern
    (s.modCh c fun x =>
      { x with
        curOrder := i
        trans := s.orderTrans c i
        songptr := if s.songLen ≤ nxt then orderWrap s else nxt
        pattnum := if orderIllegal c s then 0x00#8 else s.orderPatt c i
        pattrow := 0x00#8 })

/-- The start order row of a channel, bounded by the song's length (R142, R144). -/
def startIndex (c : Chan) (s : State) : Byte :=
  if (s.ch c).startOrder < s.songLen then (s.ch c).startOrder else 0x00#8

/-- Load a channel's wave cursor (R177, R208): its delay counter is cleared, and a jump as first entry is fatal. -/
def loadWavePtr (c : Chan) (p : Byte) (s : State) : State :=
  raiseFatalIf (p != 0x00#8 && s.isJumpAt .wave p) .jumpIntoJumpWave
    (s.modCh c fun x => { x with wavePtr := p, wavetime := 0x00#8 })

/-- Load a channel's pulse cursor (R177, R209). -/
def loadPulsePtr (c : Chan) (p : Byte) (s : State) : State :=
  raiseFatalIf (p != 0x00#8 && s.isJumpAt .pulse p) .jumpIntoJumpPulse
    (s.modCh c fun x => { x with pulsePtr := p, pulsetime := 0x00#8 })

/-- Load the shared filter cursor (R177, R210). -/
def loadFilterPtr (p : Byte) (s : State) : State :=
  raiseFatalIf (p != 0x00#8 && s.isJumpAt .filter p) .jumpIntoJumpFilter
    { s with filtPtr := p, filtTime := 0x00#8 }

/-- The target of a jump to `r` in table `k` is itself a jump (R230). -/
def jumpChained (k : Table) (r : Byte) (s : State) : Bool := r != 0x00#8 && s.isJumpAt k r

/-- Where a cursor stands after a jump to `r` (R230): at `r`, or halted when the jump is chained. -/
def jumpTarget (k : Table) (r : Byte) (s : State) : Byte := if jumpChained k r s then 0x00#8 else r

/-- Write the filter control byte (R211, R251); 0 also halts the filter walker. -/
def setFilterControl (d : Byte) (s : State) : State :=
  { s with filtCtrl := d, filtPtr := if d = 0x00#8 then 0x00#8 else s.filtPtr }

/-- Write the master fader (R213, R253): operands of 0x10 and above are ignored. -/
def setMasterVolume (d : Byte) (s : State) : State :=
  if d < 0x10#8 then { s with fader := d.setWidth 4 } else s

/-- Set the tempo of all three channels (R214, R215). -/
def setAllTempos (t : Byte) (s : State) : State :=
  { s with ch0 := { s.ch0 with tempo := t }, ch1 := { s.ch1 with tempo := t }, ch2 := { s.ch2 with tempo := t } }

end Sys2Proof.Machine
end

