-- ==== Sys2Proof/Machine/Flags.lean ====
section
/-! DEFINITION. The one-bit tests that steer control flow. The block has no arithmetic flags and no operation keeps a
carry, zero, overflow or sign (R60, R267); these are the tests R60 and the phase rules name. -/

namespace Sys2Proof.Machine

/-- The instrument's "disable hard restart" flag (R106: bit 7). -/
def hardRestartDisabled (g : Byte) : Bool := g.getLsbD 7

/-- The instrument's "disable gate-off" flag (R106: bit 6). -/
def gateOffDisabled (g : Byte) : Bool := g.getLsbD 6

/-- The decremented tick counter went below zero (R152: tested as `tick >= 0x80`). -/
def tickWrapped (t : Byte) : Bool := decide (0x80#8 ≤ t)

/-- The tempo selects the funk path (R42, R152). -/
def funkPath (tempo : Byte) : Bool := decide (tempo < 2#8)

/-- The pending command is tone-portamento (R176, R178, R180). -/
def isTonePorta (k : BitVec 4) : Bool := k == 3#4

/-- The fetch condition of a channel (R156). -/
def fetchDue (s : State) (c : Chan) : Bool := s.playing && (s.ch c).tick == (s.ch c).gatetimer.setWidth 8

/-- The row cursor names no row of the pattern (R180). -/
def rowAbsent (r len : Byte) : Bool := r == Config.pattEnd || decide (Config.maxPattRows ≤ r) || decide (len ≤ r)

/-- The vibrato phase subtracts (R36, R264: bit 0). -/
def vibSubtracts (v : Byte) : Bool := v.getLsbD 0

/-- The vibrato phase is inverted on this step (R264). -/
def vibTurns (v cmp : Byte) : Bool := decide (v < 0x80#8) && decide (cmp < v)

/-- The instrument's own vibrato runs: no command is latched, it has a speed entry and its delay has run out (R265). -/
def instrVibratoRuns (x : Channel) : Bool := x.cmddata != 0x00#8 && x.vibdelay == 1#8

end Sys2Proof.Machine
end

