-- ==== Sys2Proof/Machine/Operands.lean ====
section
/-! DEFINITION. How operands are built (R105, R113), the frequency lookup (R300), and the slide and vibrato
arithmetic on them (44_slides_vibrato.md). All sums are modulo the width (R267). -/

namespace Sys2Proof.Machine

/-- `Freq(i)` (R300): the entry at `min(i, 95)` of the ROM's contents `F`. -/
def freqAt (rom : Vector Word 96) (i : Byte) : Word := rom[min i.toNat 95]'(by omega)

/-- The operand of a set-pointer command (R105): the named instrument's pointer, or 0 for slot 0. -/
def setPtrOperand (f : InstrField) (d : Byte) (s : State) : Byte :=
  if d.setWidth 6 = 0#6 then 0x00#8 else s.instrByte (d.setWidth 6) f

/-- The gate-timer tick count of an instrument's gate-timer byte (R106). -/
def gatetimerCount (g : Byte) : BitVec 6 := g.setWidth 6

/-- `{left[3:0], right}` of a pulse set entry (R113). -/
def pulseWidth (hi : BitVec 4) (lo : Byte) : BitVec 12 := hi ++ lo

/-- `sext_12(right)` of a pulse modulation entry (R113). -/
def pulseDelta (r : Byte) : BitVec 12 := r.signExtend 12

/-- `left & 0x70` of a filter type entry whose bits 6:4 are `ty` (R292). -/
def filterTypeByte (ty : BitVec 3) : Byte := ty.setWidth 8 <<< 4

/-- The tempo value of a set-tempo operand (R113). -/
def tempoValue (d : Byte) : Byte := d &&& 0x7F#8

/-- The note index of a relative note adjustment (R238). -/
def relativeNote (o : BitVec 7) (note : Byte) : BitVec 7 := (o.setWidth 8 + note).setWidth 7

/-- `RelStep` (R261): the note-relative step, shifted right by a whole byte's count. -/
def relStep (rom : Vector Word 96) (lastnote : BitVec 7) (sh : Byte) : Word :=
  if 16 ≤ sh.toNat then 0x0000#16
  else (freqAt rom (lastnote.setWidth 8 + 1#8) - freqAt rom (lastnote.setWidth 8)) >>> sh.toNat

/-- A speed entry read as a slide step (R112 `S.SLIDE`, R260). -/
def slideReading (rom : Vector Word 96) (lastnote : BitVec 7) (l r : Byte) : Word :=
  if 0x8000#16 ≤ (l ++ r : Word) then relStep rom lastnote r else (l ++ r : Word)

/-- A speed entry read for vibrato (R112 `S.VIB`, R264): the compare value and the step. -/
def vibReading (rom : Vector Word 96) (lastnote : BitVec 7) (l r : Byte) : Byte × Word :=
  if 0x80#8 ≤ l then (l &&& 0x7F#8, relStep rom lastnote r) else (l, r.setWidth 16)

/-- `SlideStep(c, p)` (R260): 0 for address 0. -/
def slideStep (c : Chan) (p : Byte) (s : State) : Word :=
  if p = 0x00#8 then 0x0000#16 else slideReading s.freqRom (s.ch c).lastnote (s.left .speed p) (s.right .speed p)

/-- The compare value and step `Vibrato(c, p)` uses (R264): both 0 for address 0. -/
def vibOperand (c : Chan) (p : Byte) (s : State) : Byte × Word :=
  if p = 0x00#8 then (0x00#8, 0x0000#16)
  else vibReading s.freqRom (s.ch c).lastnote (s.left .speed p) (s.right .speed p)

/-- Portamento up by a step (R262). -/
def slideUp (step : Word) (x : Channel) : Channel := { x with freq := x.freq + step }

/-- Portamento down by a step (R262). -/
def slideDown (step : Word) (x : Channel) : Channel := { x with freq := x.freq - step }

/-- Tie to the target (R263, operand 0). -/
def tieToTarget (rom : Vector Word 96) (x : Channel) : Channel :=
  { x with freq := freqAt rom x.note, vibtime := 0x00#8 }

/-- The first block of tone-portamento (R263): from below, add, clamp to the target and reset the phase. -/
def approachFromBelow (target step : Word) (x : Channel) : Channel :=
  if x.freq < target then
    if target < x.freq + step then { x with freq := target, vibtime := 0x00#8 }
    else { x with freq := x.freq + step }
  else x

/-- The second block of tone-portamento (R263): from above, subtract, clamp to the target and reset the phase. -/
def approachFromAbove (target step : Word) (x : Channel) : Channel :=
  if target < x.freq then
    if x.freq - step < target then { x with freq := target, vibtime := 0x00#8 }
    else { x with freq := x.freq - step }
  else x

/-- Tone-portamento by a step (R263): the two blocks are sequential. -/
def approachTarget (rom : Vector Word 96) (step : Word) (x : Channel) : Channel :=
  approachFromAbove (freqAt rom x.note) step (approachFromBelow (freqAt rom x.note) step x)

/-- `TonePorta(c, p)` (R263). -/
def tonePorta (c : Chan) (p : Byte) (s : State) : State :=
  s.modCh c (if p = 0x00#8 then tieToTarget s.freqRom else approachTarget s.freqRom (slideStep c p s))

/-- The vibrato phase after a step (R264). -/
def vibPhase (v cmp : Byte) : Byte := (if vibTurns v cmp then v ^^^ 0xFF#8 else v) + 2#8

/-- One vibrato step with a compare value and a step (R264). -/
def vibrateBy (op : Byte × Word) (x : Channel) : Channel :=
  let v := vibPhase x.vibtime op.1
  { x with vibtime := v, freq := if vibSubtracts v then x.freq - op.2 else x.freq + op.2 }

/-- `Vibrato(c, p)` (R264). -/
def vibrato (c : Chan) (p : Byte) (s : State) : State := s.modCh c (vibrateBy (vibOperand c p s))

end Sys2Proof.Machine
end

