-- ==== Sys2Proof/Machine/Action.lean ====
section
/-! DEFINITION. The transport actions, taken at the top of a tick after the mailbox has been read and cleared (R141 to
R144). -/

namespace Sys2Proof.Machine

/-- The start row of a channel, bounded by its pattern (R142). -/
def startRowBounded (x : Channel) (s : State) : Byte :=
  if x.startRow < Config.maxPattRows ∧ x.startRow < s.pattLen x.pattnum then x.startRow else 0x00#8

/-- What `DoStart` does for one channel (R142). -/
def startChannel (c : Chan) (s : State) : State :=
  let t := sequencer c (s.modCh c fun x => { x with songptr := startIndex c s })
  t.modCh c fun x =>
    { x with
      pattrow := startRowBounded x t
      command := 0#4, cmddata := 0x00#8, newcommand := 0#4, newcmddata := 0x00#8, nnPend := false
      wavePtr := 0x00#8, wavetime := 0x00#8, pulsePtr := 0x00#8, pulsetime := 0x00#8
      tick := Config.initTick
      gatetimer := gatetimerCount (t.instrByte x.instr .gatetimer) }

/-- The shared registers Start reinitialises (R142). -/
def startShared (s : State) : State :=
  { s with filtPtr := 0x00#8, filtTime := 0x00#8, filtType := 0x00#8, filtCtrl := 0x00#8, filtCutoff := 0x00#8,
           fader := Config.resetFader }

/-- `DoStart` (R142): clear `FATAL`; an empty song is fatal and nothing else changes. -/
def startSong (s : State) : State :=
  let s1 := { s with fatal := 0#7 }
  if s.songLen = 0x00#8 then raiseFatal .emptySong s1
  else { startChannel .c2 (startChannel .c1 (startChannel .c0 (startShared s1))) with playing := true }

/-- What `DoPause` does for one channel (R143): the position becomes the start position, then the release. -/
def pauseChannel (c : Chan) (s : State) : State :=
  release c (s.modCh c fun x =>
    if x.pattrow = Config.pattEnd then { x with startOrder := x.songptr, startRow := 0x00#8 }
    else { x with startOrder := x.curOrder, startRow := x.pattrow })

/-- `DoPause` (R143). -/
def pauseSong (s : State) : State :=
  { pauseChannel .c2 (pauseChannel .c1 (pauseChannel .c0 s)) with playing := false }

/-- What `DoStop` does for one channel (R144): the release, then the rewind. -/
def stopChannel (c : Chan) (s : State) : State :=
  (release c s).modCh c fun x =>
    { x with songptr := startIndex c s, curOrder := startIndex c s, pattrow := x.startRow }

/-- `DoStop` (R144). -/
def stopSong (s : State) : State :=
  { stopChannel .c2 (stopChannel .c1 (stopChannel .c0 s)) with playing := false }

/-- `A.NONE` (R141): no action pending. -/
def execANone (s : State) : Host.Outcome State Fault Refusal := .next s

/-- `A.START` (R142). -/
def execAStart (s : State) : Host.Outcome State Fault Refusal := .next (startSong s)

/-- `A.PAUSE` (R143). -/
def execAPause (s : State) : Host.Outcome State Fault Refusal := .next (pauseSong s)

/-- `A.STOP` (R144). -/
def execAStop (s : State) : Host.Outcome State Fault Refusal := .next (stopSong s)

end Sys2Proof.Machine
end

