-- ==== Sys2Proof/Machine/Commands.lean ====
section
/-! DEFINITION. The sixteen pattern commands at tick-0 dispatch (42_pattern_commands.md), for the channel being
stepped; `d` is the command's data byte. -/

namespace Sys2Proof.Machine

/-- `NOP` (R200): no command latched, the instrument's speed pointer as operand. -/
def execNop (_ : Byte) (s : State) : Host.Outcome State Fault Refusal :=
  .next (s.modCur fun x => { x with command := 0#4, cmddata := s.instrByte x.instr .ptrSpeed })

/-- `PUP` (R201): latch portamento up, clear the vibrato phase. -/
def execPup (d : Byte) (s : State) : Host.Outcome State Fault Refusal :=
  .next (s.modCur fun x => { x with vibtime := 0x00#8, command := 1#4, cmddata := d })

/-- `PDN` (R202): latch portamento down, clear the vibrato phase. -/
def execPdn (d : Byte) (s : State) : Host.Outcome State Fault Refusal :=
  .next (s.modCur fun x => { x with vibtime := 0x00#8, command := 2#4, cmddata := d })

/-- `TPO` (R203): latch tone-portamento. -/
def execTpo (d : Byte) (s : State) : Host.Outcome State Fault Refusal :=
  .next (s.modCur fun x => { x with command := 3#4, cmddata := d })

/-- `VIB` (R204): latch vibrato; the phase carries over. -/
def execVib (d : Byte) (s : State) : Host.Outcome State Fault Refusal :=
  .next (s.modCur fun x => { x with command := 4#4, cmddata := d })

/-- `SAD` (R205): the attack/decay byte of the image. -/
def execSad (d : Byte) (s : State) : Host.Outcome State Fault Refusal := .next (s.setReg (regIdx s.chan 5) d)

/-- `SSR` (R206): the sustain/release byte of the image. -/
def execSsr (d : Byte) (s : State) : Host.Outcome State Fault Refusal := .next (s.setReg (regIdx s.chan 6) d)

/-- `SWV` (R207): the waveform byte. -/
def execSwv (d : Byte) (s : State) : Host.Outcome State Fault Refusal :=
  .next (s.modCur fun x => { x with wave := d })

/-- `SWP` (R208): restart the wave program at an instrument's wave pointer. -/
def execSwp (d : Byte) (s : State) : Host.Outcome State Fault Refusal :=
  .next (loadWavePtr s.chan (setPtrOperand .ptrWave d s) s)

/-- `SPP` (R209): restart the pulse program at an instrument's pulse pointer. -/
def execSpp (d : Byte) (s : State) : Host.Outcome State Fault Refusal :=
  .next (loadPulsePtr s.chan (setPtrOperand .ptrPulse d s) s)

/-- `SFP` (R210): restart the shared filter program at an instrument's filter pointer. -/
def execSfp (d : Byte) (s : State) : Host.Outcome State Fault Refusal :=
  .next (loadFilterPtr (setPtrOperand .ptrFilter d s) s)

/-- `SFC` (R211): the filter control byte; 0 halts the filter walker. -/
def execSfc (d : Byte) (s : State) : Host.Outcome State Fault Refusal := .next (setFilterControl d s)

/-- `SCO` (R212): the filter cutoff. -/
def execSco (d : Byte) (s : State) : Host.Outcome State Fault Refusal := .next { s with filtCutoff := d }

/-- `SMV` (R213): the master fader, for operands below 0x10. -/
def execSmv (d : Byte) (s : State) : Host.Outcome State Fault Refusal := .next (setMasterVolume d s)

/-- `FNK` (R214): load the funk table from a speed entry (unless the operand is 0) and select the funk path on all
three channels. -/
def execFnk (d : Byte) (s : State) : Host.Outcome State Fault Refusal :=
  .next (setAllTempos 0x00#8
    (if d = 0x00#8 then s else { s with funk0 := s.left .speed d, funk1 := s.right .speed d }))

/-- `TMP` (R215): bit 7 set, this channel's tempo; clear, all three. -/
def execTmp (d : Byte) (s : State) : Host.Outcome State Fault Refusal :=
  .next (if 0x80#8 ≤ d then s.modCur fun x => { x with tempo := tempoValue d }
         else setAllTempos (tempoValue d) s)

end Sys2Proof.Machine
end

