-- ==== Sys2Proof/Machine/Filter.lean ====
section
/-! DEFINITION. The shared filter-table walker (46_filtertable.md). As in R290, the entry's class counts only when the
modulation counter is 0. -/

namespace Sys2Proof.Machine

/-- The modulation step of R290, made when the counter is not 0; `r` is the right byte under the cursor. -/
def filterModulate (r : Byte) (s : State) : State :=
  if s.filtTime = 0x00#8 then s
  else { s with
    filtCutoff := s.filtCutoff + r
    filtTime := s.filtTime - 1#8
    filtPtr := if s.filtTime - 1#8 = 0x00#8 then s.filtPtr + 1#8 else s.filtPtr }

/-- The part of R290 that a class decides, made when the counter is 0. -/
def filterStart (f : State → State) (s : State) : State := if s.filtTime = 0x00#8 then f s else s

/-- Set the cutoff and advance (R293). -/
def filterCut (r : Byte) (s : State) : State := { s with filtCutoff := r, filtPtr := s.filtPtr + 1#8 }

/-- The combined cutoff set of R292: a following entry with `left` 0x00, while the cursor is not 0. -/
def absorbCut (s : State) : State :=
  if s.filtPtr != 0x00#8 && s.left .filter s.filtPtr == 0x00#8 then filterCut (s.right .filter s.filtPtr) s else s

/-- `F.CUT` (R293). -/
def execFCut (r : Byte) (s : State) : Host.Outcome State Fault Refusal :=
  .next ((filterModulate r (filterStart (filterCut r) s)).goto .sharedOut)

/-- `F.MOD` (R294): load the counter when the entry is reached, and step on that same tick. -/
def execFMod (n : BitVec 7) (r : Byte) (s : State) : Host.Outcome State Fault Refusal :=
  .next ((filterModulate r (filterStart (fun t => { t with filtTime := n.setWidth 8 }) s)).goto .sharedOut)

/-- `F.TYPE` (R292): type and control, absorbing a following `F.CUT`. -/
def execFType (ty : BitVec 3) (ctl : Byte) (s : State) : Host.Outcome State Fault Refusal :=
  .next ((filterModulate ctl (filterStart
    (fun t => absorbCut { t with filtType := filterTypeByte ty, filtCtrl := ctl, filtPtr := t.filtPtr + 1#8 })
    s)).goto .sharedOut)

/-- `F.JUMP` (R230, R291): to the target, which is executed in the same step; 0 halts the walker; a chained jump is
fatal and halts it. -/
def execFJump (r : Byte) (s : State) : Host.Outcome State Fault Refusal :=
  .next ((raiseFatalIf (jumpChained .filter r s) .jumpIntoJumpFilter
    { s with filtPtr := jumpTarget .filter r s }).goto
      (if jumpTarget .filter r s = 0x00#8 then .sharedOut else .filter))

end Sys2Proof.Machine
end

