-- ==== Sys2Proof/Machine/FirstWave.lean ====
section
/-! DEFINITION. The first-waveform byte of an instrument at note start (R107, R177), for the channel being stepped. -/

namespace Sys2Proof.Machine

/-- `FW.KEEP` (R107): waveform and gate unchanged. -/
def execFwKeep (s : State) : Host.Outcome State Fault Refusal := .next s

/-- `FW.WAVE` (R107, R177): the waveform byte, gate on. -/
def execFwWave (w : Byte) (s : State) : Host.Outcome State Fault Refusal :=
  .next (s.modCur fun x => { x with wave := w, gate := 0xFF#8 })

/-- `FW.GOFF` (R107, R177): gate off, waveform unchanged. -/
def execFwGoff (s : State) : Host.Outcome State Fault Refusal :=
  .next (s.modCur fun x => { x with gate := 0xFE#8 })

/-- `FW.GON` (R107, R177): gate on, waveform unchanged. -/
def execFwGon (s : State) : Host.Outcome State Fault Refusal :=
  .next (s.modCur fun x => { x with gate := 0xFF#8 })

end Sys2Proof.Machine
end

