-- ==== Sys2Proof/Machine/Notes.lean ====
section
/-! DEFINITION. The note byte of a fetched row (R102): the class case of `GetNewNotes` (R180), for the channel being
stepped, after the row's other fields have been latched. -/

namespace Sys2Proof.Machine

/-- Gate off ahead of a note, and hard restart, as the instrument's two flags allow (R180, R322). -/
def leadIn (c : Chan) (g : Byte) (s : State) : State :=
  if gateOffDisabled g then s
  else if hardRestartDisabled g then s.modCh c fun x => { x with gate := 0xFE#8 }
  else setEnvelope c Config.hrAd Config.hrSr (s.modCh c fun x => { x with gate := 0xFE#8 })

/-- `N.REST` (R102, R180): no note. -/
def execNRest (s : State) : Host.Outcome State Fault Refusal := .next s

/-- `N.KOFF` (R180): gate off. -/
def execNKoff (s : State) : Host.Outcome State Fault Refusal :=
  .next (s.modCur fun x => { x with gate := 0xFE#8 })

/-- `N.KON` (R180): gate on. -/
def execNKon (s : State) : Host.Outcome State Fault Refusal :=
  .next (s.modCur fun x => { x with gate := 0xFF#8 })

/-- `N.NOTE` (R180): queue the transposed note; unless the row's command is tone-portamento, gate off and hard
restart as the instrument allows. -/
def execNNote (n : Byte) (s : State) : Host.Outcome State Fault Refusal :=
  let t := s.modCur fun x => { x with newnote := n + x.trans, nnPend := true }
  .next (if isTonePorta s.cur.newcommand then t
         else leadIn s.chan (s.instrByte s.cur.instr .gatetimer) t)

/-- `N.NONE` (R102: "treated exactly as `N.REST`"). -/
def execNNone (_ : Byte) (s : State) : Host.Outcome State Fault Refusal := .next s

end Sys2Proof.Machine
end

