-- ==== Sys2Proof/Machine/Pulse.lean ====
section
/-! DEFINITION. The pulse-table walker (45_pulsetable.md), for the channel being stepped. R280 looks at the entry's
class only when the modulation counter is 0; while it runs, the entry's right byte is added whatever its class. -/

namespace Sys2Proof.Machine

/-- The end of the phase `PulseExec` (R156): to the row fetch when it is due, else to the write-out. -/
def afterPulse (s : State) : State := s.goto (if fetchDue s s.chan then .getNewNotes else .nextChannel)

/-- The modulation step of R280, made when the counter is not 0: add the delta, count down, advance at 0. -/
def pulseModulate (r : Byte) (x : Channel) : Channel :=
  if x.pulsetime = 0x00#8 then x
  else { x with
    pulse := x.pulse + pulseDelta r
    pulsetime := x.pulsetime - 1#8
    pulsePtr := if x.pulsetime - 1#8 = 0x00#8 then x.pulsePtr + 1#8 else x.pulsePtr }

/-- The part of R280 that a class decides, made when the counter is 0. -/
def pulseStart (f : Channel → Channel) (x : Channel) : Channel := if x.pulsetime = 0x00#8 then f x else x

/-- `P.HOLD` (R283): the walker holds on the entry. -/
def execPHold (r : Byte) (s : State) : Host.Outcome State Fault Refusal :=
  .next (afterPulse (s.modCur fun x => pulseModulate r (pulseStart (fun y => { y with pulsetime := 0x00#8 }) x)))

/-- `P.MOD` (R282): load the counter when the entry is reached, and step on that same tick. -/
def execPMod (n : BitVec 7) (r : Byte) (s : State) : Host.Outcome State Fault Refusal :=
  .next (afterPulse (s.modCur fun x => pulseModulate r (pulseStart (fun y => { y with pulsetime := n.setWidth 8 }) x)))

/-- `P.SET` (R281): the width, and the cursor advances. -/
def execPSet (hi : BitVec 4) (lo : Byte) (s : State) : Host.Outcome State Fault Refusal :=
  .next (afterPulse (s.modCur fun x =>
    pulseModulate lo (pulseStart (fun y => { y with pulse := pulseWidth hi lo, pulsePtr := y.pulsePtr + 1#8 }) x)))

/-- `P.JUMP` (R230, R284): to the target, which is executed in the same step; 0 halts the walker; a chained jump is
fatal and halts it. -/
def execPJump (r : Byte) (s : State) : Host.Outcome State Fault Refusal :=
  let t := raiseFatalIf (jumpChained .pulse r s) .jumpIntoJumpPulse
    (s.modCur fun x => { x with pulsePtr := jumpTarget .pulse r s })
  .next (if jumpTarget .pulse r s = 0x00#8 then afterPulse t else t.goto .pulseExec)

end Sys2Proof.Machine
end

