-- ==== Sys2Proof/Machine/Speed.lean ====
section
/-! DEFINITION. The three readings of a speed-table entry (R112), run on the channel being stepped. An entry is
data: what it does is what the command that reads it does with it (assumption log 6). -/

namespace Sys2Proof.Machine

/-- `S.SLIDE` (R112, R260, R266): the latched slide applied with this entry's step; without a latched slide nothing
reads the entry. -/
def execSSlide (l r : Byte) (s : State) : Host.Outcome State Fault Refusal :=
  .next (s.modCur fun x =>
    if x.command = 1#4 then slideUp (slideReading s.freqRom x.lastnote l r) x
    else if x.command = 2#4 then slideDown (slideReading s.freqRom x.lastnote l r) x
    else if x.command = 3#4 then approachTarget s.freqRom (slideReading s.freqRom x.lastnote l r) x
    else x)

/-- `S.VIB` (R112, R264): one vibrato step with this entry's compare value and step. -/
def execSVib (l r : Byte) (s : State) : Host.Outcome State Fault Refusal :=
  .next (s.modCur fun x => vibrateBy (vibReading s.freqRom x.lastnote l r) x)

/-- `S.FUNK` (R112, R214): the entry's two bytes become the funk table. -/
def execSFunk (l r : Byte) (s : State) : Host.Outcome State Fault Refusal :=
  .next { s with funk0 := l, funk1 := r }

end Sys2Proof.Machine
end

