-- ==== Sys2Proof/Machine/Wave.lean ====
section
/-! DEFINITION. The wave-table walker (43_wavetable.md): the note adjustments, the four plain entry classes, the jump
and the embedded commands, for the channel being stepped. Each meaning ends where R150 says the phase `WaveExec`
goes next. -/

namespace Sys2Proof.Machine

/-! ## Note adjustment (R238) -/

/-- Set the frequency from a note index and latch it as the last note (R238). -/
def applyNote (n : BitVec 7) (s : State) : State :=
  (s.modCur fun x => { x with freq := freqAt s.freqRom (n.setWidth 8), vibtime := 0x00#8, lastnote := n }).goto .pulseExec

/-- `NA.KEEP` (R238): no change; the latched command's effects run. -/
def execNaKeep (s : State) : Host.Outcome State Fault Refusal := .next (s.goto .tickNEffects)

/-- `NA.REL` (R238): the channel's note plus an offset, within 7 bits. -/
def execNaRel (o : BitVec 7) (s : State) : Host.Outcome State Fault Refusal :=
  .next (applyNote (relativeNote o s.cur.note) s)

/-- `NA.ABS` (R238): an absolute note index. -/
def execNaAbs (i : BitVec 7) (s : State) : Host.Outcome State Fault Refusal := .next (applyNote i s)

/-- Run the note adjustment an instruction is; any other instruction is none. -/
def runNoteAdj (i : Instr) (s : State) : State :=
  match i with
  | .naKeep => settled s (execNaKeep s)
  | .naRel o => settled s (execNaRel o s)
  | .naAbs n => settled s (execNaAbs n s)
  | _ => s

/-- `NoteAdjust(c, Rg)` (R238): the right byte of a passed entry, decoded and run. -/
def noteAdjust (r : Byte) (s : State) : State := runNoteAdj (decodeNoteAdj r) s

/-! ## Plain entries -/

/-- Pass the entry (R236): clear the delay counter and advance the cursor, 255 going to 0. -/
def waveAdvance (s : State) : State :=
  s.modCur fun x => { x with wavetime := 0x00#8, wavePtr := x.wavePtr + 1#8 }

/-- `W.KEEP` (R235): no waveform change. -/
def execWKeep (r : Byte) (s : State) : Host.Outcome State Fault Refusal := .next (noteAdjust r (waveAdvance s))

/-- `W.DELAY` (R232): wait until the delay counter has reached `n`, then pass. -/
def execWDelay (n : BitVec 4) (r : Byte) (s : State) : Host.Outcome State Fault Refusal :=
  .next (if s.cur.wavetime = n.setWidth 8 then noteAdjust r (waveAdvance s)
         else (s.modCur fun x => { x with wavetime := x.wavetime + 1#8 }).goto .tickNEffects)

/-- `W.WAVE` (R233): the waveform byte. -/
def execWWave (l r : Byte) (s : State) : Host.Outcome State Fault Refusal :=
  .next (noteAdjust r (waveAdvance (s.modCur fun x => { x with wave := l })))

/-- `W.MUTE` (R234): the control nibble as waveform byte, no waveform selected. -/
def execWMute (ctl : BitVec 4) (r : Byte) (s : State) : Host.Outcome State Fault Refusal :=
  .next (noteAdjust r (waveAdvance (s.modCur fun x => { x with wave := ctl.setWidth 8 })))

/-- `W.JUMP` (R230, R237): to the target, which is executed in the same step; 0 halts the walker; a chained jump is
fatal and halts it. -/
def execWJump (r : Byte) (s : State) : Host.Outcome State Fault Refusal :=
  .next ((raiseFatalIf (jumpChained .wave r s) .jumpIntoJumpWave
    (s.modCur fun x => { x with wavePtr := jumpTarget .wave r s })).goto
      (if jumpTarget .wave r s = 0x00#8 then .tickNEffects else .waveExec))

/-! ## Embedded commands (R239 to R254) -/

/-- After an embedded command (R239): the entry is passed, the effects are skipped. -/
def wavePassCommand (s : State) : State := (waveAdvance s).goto .pulseExec

/-- `W.X.NOP` (R240): illegal. -/
def execWxNop (_ : Byte) (s : State) : Host.Outcome State Fault Refusal :=
  .next (wavePassCommand (raiseFatal .illegalWaveCommand s))

/-- `W.X.PUP` (R241): one slide step up. -/
def execWxPup (r : Byte) (s : State) : Host.Outcome State Fault Refusal :=
  .next (wavePassCommand (s.modCur (slideUp (slideStep s.chan r s))))

/-- `W.X.PDN` (R242): one slide step down. -/
def execWxPdn (r : Byte) (s : State) : Host.Outcome State Fault Refusal :=
  .next (wavePassCommand (s.modCur (slideDown (slideStep s.chan r s))))

/-- `W.X.TPO` (R243): one tone-portamento step. -/
def execWxTpo (r : Byte) (s : State) : Host.Outcome State Fault Refusal :=
  .next (wavePassCommand (tonePorta s.chan r s))

/-- `W.X.VIB` (R244): one vibrato step. -/
def execWxVib (r : Byte) (s : State) : Host.Outcome State Fault Refusal :=
  .next (wavePassCommand (vibrato s.chan r s))

/-- `W.X.SAD` (R245). -/
def execWxSad (r : Byte) (s : State) : Host.Outcome State Fault Refusal :=
  .next (wavePassCommand (s.setReg (regIdx s.chan 5) r))

/-- `W.X.SSR` (R246). -/
def execWxSsr (r : Byte) (s : State) : Host.Outcome State Fault Refusal :=
  .next (wavePassCommand (s.setReg (regIdx s.chan 6) r))

/-- `W.X.SWV` (R247): any waveform byte. -/
def execWxSwv (r : Byte) (s : State) : Host.Outcome State Fault Refusal :=
  .next (wavePassCommand (s.modCur fun x => { x with wave := r }))

/-- `W.X.SWP` (R248): illegal; the cursor is not loaded. -/
def execWxSwp (_ : Byte) (s : State) : Host.Outcome State Fault Refusal :=
  .next (wavePassCommand (raiseFatal .illegalWaveCommand s))

/-- `W.X.SPP` (R249). -/
def execWxSpp (r : Byte) (s : State) : Host.Outcome State Fault Refusal :=
  .next (wavePassCommand (loadPulsePtr s.chan (setPtrOperand .ptrPulse r s) s))

/-- `W.X.SFP` (R250). -/
def execWxSfp (r : Byte) (s : State) : Host.Outcome State Fault Refusal :=
  .next (wavePassCommand (loadFilterPtr (setPtrOperand .ptrFilter r s) s))

/-- `W.X.SFC` (R251). -/
def execWxSfc (r : Byte) (s : State) : Host.Outcome State Fault Refusal :=
  .next (wavePassCommand (setFilterControl r s))

/-- `W.X.SCO` (R252). -/
def execWxSco (r : Byte) (s : State) : Host.Outcome State Fault Refusal :=
  .next (wavePassCommand { s with filtCutoff := r })

/-- `W.X.SMV` (R253). -/
def execWxSmv (r : Byte) (s : State) : Host.Outcome State Fault Refusal :=
  .next (wavePassCommand (setMasterVolume r s))

/-- `W.X.FNK` (R254): illegal; funk table and tempos unchanged. -/
def execWxFnk (_ : Byte) (s : State) : Host.Outcome State Fault Refusal :=
  .next (wavePassCommand (raiseFatal .illegalWaveCommand s))

end Sys2Proof.Machine
end

