-- ==== Sys2Proof/Machine/Writeout.lean ====
section
/-! DEFINITION. Register packing (47_freq_and_writeout.md) and the status outputs (R58, R326). -/

namespace Sys2Proof.Machine

/-- The waveform-and-gate byte of a channel (R306): a muted channel passes the test bit only. -/
def waveGateByte (x : Channel) : Byte := if x.mute then x.wave &&& 0x08#8 else x.wave &&& x.gate

/-- `NextChannel(c)` (R305, R306): the five image bytes written every tick. -/
def writeChannel (c : Chan) (s : State) : State :=
  ((((s.setReg (regIdx c 0) ((s.ch c).freq.setWidth 8)).setReg
    (regIdx c 1) ((s.ch c).freq.extractLsb' 8 8)).setReg
    (regIdx c 2) ((s.ch c).pulse.setWidth 8 &&& 0xFE#8)).setReg
    (regIdx c 3) ((s.ch c).pulse.extractLsb' 8 4 |>.setWidth 8)).setReg
    (regIdx c 4) (waveGateByte (s.ch c))

/-- The shared image bytes 0x15 to 0x18 (R307). -/
def writeShared (s : State) : State :=
  (((s.setReg 0x15 0x00#8).setReg 0x16 s.filtCutoff).setReg 0x17 s.filtCtrl).setReg 0x18
    (s.filtType ||| s.fader.setWidth 8)

/-- `IS_PLAYING` (R58). -/
def State.isPlaying (s : State) : Bool := s.playing

/-- `CUR_ORDER[c]` (R58). -/
def State.statusOrder (s : State) (c : Chan) : Byte := (s.ch c).curOrder

/-- `CUR_ROW[c]` (R58): the row the next fetch reads, or the end marker. -/
def State.statusRow (s : State) (c : Chan) : Byte := (s.ch c).pattrow

/-- `MUTED[c]` (R58). -/
def State.statusMuted (s : State) (c : Chan) : Bool := (s.ch c).mute

/-- `FATAL` as the host reads it (R53, R58). -/
def State.statusFatal (s : State) : BitVec 7 := s.fatal

end Sys2Proof.Machine
end

