-- ==== Sys2Proof/Machine/Tick.lean ====
section
/-! DEFINITION. The tick (40_transport_and_tick.md): what each phase fetches, what it does beside the instruction it
fetches, and the whole tick as its phases run one after another (R140, R150). -/

namespace Sys2Proof.Machine

/-! ## What a phase fetches -/

/-- What the machine reads next: nothing, a host operation by name, or a word of a format. -/
inductive Fetched where
  | nothing
  | host (h : HostCall)
  | word (f : Format) (bytes : List Byte)
deriving DecidableEq, Repr

/-- The entry under a table cursor, nothing when the cursor is 0 (R231, R280, R290). -/
def fetchEntry (k : Table) (f : Format) (p : Byte) (s : State) : Fetched :=
  if p = 0x00#8 then .nothing else .word f [s.left k p, s.right k p]

/-- The speed entry the latched command reads on this tick (R265, R266): none for address 0, while an instrument
vibrato waits, or for a command that is never latched. -/
def fetchEffect (s : State) : Fetched :=
  if s.cur.command = 0#4 then
    (if instrVibratoRuns s.cur then fetchEntry .speed .vibrato s.cur.cmddata s else .nothing)
  else if s.cur.command = 4#4 then fetchEntry .speed .vibrato s.cur.cmddata s
  else if s.cur.command = 1#4 ∨ s.cur.command = 2#4 ∨ s.cur.command = 3#4 then
    fetchEntry .speed .slide s.cur.cmddata s
  else .nothing

/-- The note byte of the next row, nothing when the row is absent (R180). -/
def fetchRow (s : State) : Fetched :=
  if rowAbsent s.cur.pattrow (s.pattLen s.cur.pattnum) then .nothing
  else .word .note [s.pattByte s.cur.pattnum s.cur.pattrow .note]

/-- The host operation at the head of the requests; with none waiting, the next call of `play_routine`
(assumption log 7). -/
def fetchHost (s : State) : Fetched :=
  match s.requests with
  | [] => .host .playRoutine
  | .call h :: _ => .host h
  | .store _ _ :: _ => .nothing
  | .reset :: _ => .nothing

/-- What the machine reads next (R141, R290, R177, R179, R231, R266, R280, R180). -/
def fetch (s : State) : Fetched :=
  match s.phase with
  | .idle => fetchHost s
  | .actions => .word .action [s.action.setWidth 8]
  | .filter => fetchEntry .filter .filter s.filtPtr s
  | .noteStart => .word .firstwave [s.instrByte s.cur.instr .firstwave]
  | .dispatch => .word .cmd [s.cur.newcommand.setWidth 8, s.cur.newcmddata]
  | .waveExec => fetchEntry .wave .wave s.cur.wavePtr s
  | .tickNEffects => fetchEffect s
  | .pulseExec => fetchEntry .pulse .pulse s.cur.pulsePtr s
  | .getNewNotes => fetchRow s
  | .sharedOut | .enter | .tickN | .tick0 | .nextChannel => .nothing

/-! ## Around a fetched instruction -/

/-- `GetNewNotes` before its class case (R180): instrument, command and row cursor. -/
def latchRow (s : State) : State :=
  let i := (s.pattByte s.cur.pattnum s.cur.pattrow .instr).setWidth 6
  let r1 := s.cur.pattrow + 1#8
  s.modCur fun x =>
    { x with
      instr := if i = 0#6 then x.instr else i
      newcommand := (s.pattByte x.pattnum x.pattrow .cmd).setWidth 4
      newcmddata := s.pattByte x.pattnum x.pattrow .data
      pattrow := if s.pattLen x.pattnum ≤ r1 ∨ Config.maxPattRows ≤ r1 then Config.pattEnd else r1 }

/-- What a fetch takes with it before the instruction runs: a request leaves the queue, the mailbox is cleared (R141),
the rest of a row is latched (R180). -/
def beforeExec (s : State) : State :=
  match s.phase with
  | .idle => { s with requests := s.requests.tail }
  | .actions => { s with action := 0#2 }
  | .getNewNotes => latchRow s
  | .filter | .noteStart | .dispatch | .waveExec | .tickNEffects | .pulseExec => s
  | .sharedOut | .enter | .tickN | .tick0 | .nextChannel => s

/-- `NoteStart` after its first waveform (R177): the cursor loads and the envelope bytes. -/
def noteLoads (s : State) : State :=
  let i := s.cur.instr
  let s1 := loadWavePtr s.chan (s.instrByte i .ptrWave) s
  let s2 := if s.instrByte i .ptrPulse = 0x00#8 then s1 else loadPulsePtr s.chan (s.instrByte i .ptrPulse) s1
  let s3 := if s.instrByte i .ptrFilter = 0x00#8 then s2 else loadFilterPtr (s.instrByte i .ptrFilter) s2
  setEnvelope s.chan (s.instrByte i .ad) (s.instrByte i .sr) s3

/-- Step 5 of tick 0 (R178): a consumed note ends the channel's tick unless the command is tone-portamento. -/
def tick0End (s : State) : State :=
  if s.cur.nnPend then
    (s.modCur fun x => { x with nnPend := false }).goto
      (if isTonePorta s.cur.newcommand then .waveExec else .nextChannel)
  else s.goto .waveExec

/-- What follows the instruction a phase has run, up to the next phase. The walkers' own instructions say where they
go (R238, R239, R156). -/
def afterExec (p : Phase) (s : State) : State :=
  match p with
  | .actions => s.goto .filter
  | .noteStart => (noteLoads s).goto .dispatch
  | .dispatch => tick0End s
  | .tickNEffects => s.goto .pulseExec
  | .getNewNotes => s.goto .nextChannel
  | .idle | .filter | .waveExec | .pulseExec => s
  | .sharedOut | .enter | .tickN | .tick0 | .nextChannel => s

/-! ## Phases that fetch nothing -/

/-- The tick counter's reload value and the tempo after it (R152). -/
def reload (s : State) (x : Channel) : Byte × Byte :=
  if funkPath x.tempo then ((if x.tempo = 0x00#8 then s.funk0 else s.funk1), x.tempo ^^^ 0x01#8)
  else (x.tempo, x.tempo)

/-- `TickN` (R152): reload after the counter has wrapped, and the gate-timer check. -/
def tickN (s : State) : State :=
  if tickWrapped s.cur.tick then
    raiseFatalIf (decide ((reload s s.cur).1 < s.cur.gatetimer.setWidth 8)) .gatetimerExceedsTick
      (s.modCur fun x => { x with tick := (reload s x).1, tempo := (reload s x).2 })
  else s

/-- Step 1 of tick 0 (R175): at the end of the pattern, loop it or re-enter the sequencer; nothing when frozen. -/
def endOfPattern (s : State) : State :=
  if s.playing ∧ s.cur.pattrow = Config.pattEnd then
    (if s.loopPattern then s.modCur fun x => { x with pattrow := 0x00#8 } else sequencer s.chan s)
  else s

/-- Step 2 of tick 0 (R174): the gate-timer compare value from the active instrument. -/
def reloadGatetimer (s : State) : State :=
  s.modCur fun x => { x with gatetimer := gatetimerCount (s.instrByte x.instr .gatetimer) }

/-- Step 3 of tick 0, first half (R176): the pending note becomes the note; the instrument's vibrato is armed. -/
def consumeNote (s : State) : State :=
  if s.cur.nnPend then
    s.modCur fun x =>
      { x with
        note := x.newnote - Config.noteBase
        command := 0#4
        vibdelay := s.instrByte x.instr .vibdelay
        cmddata := s.instrByte x.instr .ptrSpeed }
  else s

/-- Tick 0 up to the first instruction it fetches (R153): the first waveform of a note that starts, else the pending
command. -/
def tick0 (s : State) : State :=
  let t := consumeNote (reloadGatetimer (endOfPattern s))
  t.goto (if t.cur.nnPend && !isTonePorta t.cur.newcommand then .noteStart else .dispatch)

/-- `Enter` (R151): decrement the tick counter; 0 is tick 0. -/
def enterChannel (s : State) : State :=
  (s.modCur fun x => { x with tick := x.tick - 1#8 }).goto
    (if s.cur.tick - 1#8 = 0x00#8 then .tick0 else .tickN)

/-- The effects of a channel whose latched command reads no speed entry (R262 to R266 with address 0, and the waiting
instrument vibrato of R265). -/
def effectsWithoutEntry (rom : Vector Word 96) (x : Channel) : Channel :=
  if x.command = 0#4 then
    (if x.cmddata != 0x00#8 && decide (1#8 < x.vibdelay) then { x with vibdelay := x.vibdelay - 1#8 } else x)
  else if x.command = 3#4 then tieToTarget rom x
  else if x.command = 4#4 then vibrateBy (0x00#8, 0x0000#16) x
  else x

/-- `NextChannel` (R150, R305, R306): the write-out, then the next channel, or the end of the tick. -/
def nextChannel (s : State) : State :=
  match s.chan with
  | .c0 => { writeChannel .c0 s with chan := .c1, phase := .enter }
  | .c1 => { writeChannel .c1 s with chan := .c2, phase := .enter }
  | .c2 => { writeChannel .c2 s with chan := .c0, phase := .idle }

/-- What a phase inside a tick does when it fetches nothing. -/
def advance (s : State) : State :=
  match s.phase with
  | .filter => s.goto .sharedOut
  | .sharedOut => { writeShared s with chan := .c0, phase := .enter }
  | .enter => enterChannel s
  | .tickN => (tickN s).goto .waveExec
  | .tick0 => tick0 s
  | .waveExec => s.goto .tickNEffects
  | .tickNEffects => (s.modCur (effectsWithoutEntry s.freqRom)).goto .pulseExec
  | .pulseExec => afterPulse s
  | .getNewNotes => (s.modCur fun x => { x with pattrow := Config.pattEnd }).goto .nextChannel
  | .nextChannel => nextChannel s
  | .idle | .actions | .noteStart | .dispatch => s

/-! ## The tick -/

/-- Run one instruction of the song or one action inside a tick. A host operation is never issued there (R85). -/
def perform (i : Instr) (s : State) : State :=
  match i with
  | .nRest => settled s (execNRest s)
  | .nKoff => settled s (execNKoff s)
  | .nKon => settled s (execNKon s)
  | .nNote n => settled s (execNNote n s)
  | .nNone n => settled s (execNNone n s)
  | .nop d => settled s (execNop d s)
  | .pup d => settled s (execPup d s)
  | .pdn d => settled s (execPdn d s)
  | .tpo d => settled s (execTpo d s)
  | .vib d => settled s (execVib d s)
  | .sad d => settled s (execSad d s)
  | .ssr d => settled s (execSsr d s)
  | .swv d => settled s (execSwv d s)
  | .swp d => settled s (execSwp d s)
  | .spp d => settled s (execSpp d s)
  | .sfp d => settled s (execSfp d s)
  | .sfc d => settled s (execSfc d s)
  | .sco d => settled s (execSco d s)
  | .smv d => settled s (execSmv d s)
  | .fnk d => settled s (execFnk d s)
  | .tmp d => settled s (execTmp d s)
  | .fwKeep => settled s (execFwKeep s)
  | .fwWave w => settled s (execFwWave w s)
  | .fwGoff => settled s (execFwGoff s)
  | .fwGon => settled s (execFwGon s)
  | .wKeep r => settled s (execWKeep r s)
  | .wDelay n r => settled s (execWDelay n r s)
  | .wWave l r => settled s (execWWave l r s)
  | .wMute ctl r => settled s (execWMute ctl r s)
  | .wxNop r => settled s (execWxNop r s)
  | .wxPup r => settled s (execWxPup r s)
  | .wxPdn r => settled s (execWxPdn r s)
  | .wxTpo r => settled s (execWxTpo r s)
  | .wxVib r => settled s (execWxVib r s)
  | .wxSad r => settled s (execWxSad r s)
  | .wxSsr r => settled s (execWxSsr r s)
  | .wxSwv r => settled s (execWxSwv r s)
  | .wxSwp r => settled s (execWxSwp r s)
  | .wxSpp r => settled s (execWxSpp r s)
  | .wxSfp r => settled s (execWxSfp r s)
  | .wxSfc r => settled s (execWxSfc r s)
  | .wxSco r => settled s (execWxSco r s)
  | .wxSmv r => settled s (execWxSmv r s)
  | .wxFnk r => settled s (execWxFnk r s)
  | .wJump r => settled s (execWJump r s)
  | .pHold r => settled s (execPHold r s)
  | .pMod n r => settled s (execPMod n r s)
  | .pSet hi lo => settled s (execPSet hi lo s)
  | .pJump r => settled s (execPJump r s)
  | .fCut r => settled s (execFCut r s)
  | .fMod n r => settled s (execFMod n r s)
  | .fType ty ctl => settled s (execFType ty ctl s)
  | .fJump r => settled s (execFJump r s)
  | .sSlide l r => settled s (execSSlide l r s)
  | .sVib l r => settled s (execSVib l r s)
  | .sFunk l r => settled s (execSFunk l r s)
  | .naKeep => settled s (execNaKeep s)
  | .naRel o => settled s (execNaRel o s)
  | .naAbs n => settled s (execNaAbs n s)
  | .aNone => settled s (execANone s)
  | .aStart => settled s (execAStart s)
  | .aPause => settled s (execAPause s)
  | .aStop => settled s (execAStop s)
  | .hTick | .hAction _ | .hTestnote _ _ _ | .hRelease _ | .hActive _ _ => s
  | .hSetstart _ _ _ | .hSetloop _ => s

/-- One phase of a tick: the instruction it fetches with what stands around it, or what it does when it fetches
nothing. Between ticks nothing moves (R345). -/
def microStep (s : State) : State :=
  if s.phase = .idle then s
  else match fetch s with
    | .nothing => advance s
    | .host _ => s
    | .word f bytes =>
      match decode f bytes with
      | .ok i => afterExec s.phase (perform i (beforeExec s))
      | .error _ => s

/-- Run phases until the tick is over, at most as many as given. -/
def runPhases : Nat → State → State
  | 0, s => s
  | n + 1, s => if s.phase = .idle then s else runPhases n (microStep s)

/-- The most phases a tick has (R366): the action, two filter entries, the shared write-out, and for each channel
Enter, tick 0, note start, dispatch, two wave entries, the effects, two pulse entries, the fetch and the write-out. -/
def tickBound : Nat := 4 + 3 * 11

/-- `Tick` (R140): from the action at the top to the end of channel 2's step. -/
def runTick (s : State) : State := runPhases tickBound (s.goto .actions)

end Sys2Proof.Machine
end

