-- ==== Sys2Proof/Machine/HostOps.lean ====
section
/-! DEFINITION. The host operations (48_host_ops.md). Each is legal only between ticks (R85); during a tick it is
refused (U1, U24). A channel argument of 3 changes nothing (R114, U21). -/

namespace Sys2Proof.Machine

/-- A host operation acts at once, between ticks (R62, R85). -/
def hostOp (s t : State) : Host.Outcome State Fault Refusal :=
  if s.phase = .idle then .next t else .refused .duringTick

/-- A host operation on a channel (R114): 3 names none, and changes nothing. -/
def onChannel (ch : BitVec 2) (f : Chan → State → State) (s : State) : State :=
  match chanOf ch with
  | some c => f c s
  | none => s

/-- Release of a channel's note (R323). -/
def releaseNote (c : Chan) (s : State) : State := s.modCh c fun x => { x with gate := 0xFE#8 }

/-- The instrument a test note uses (R322): slot 0 keeps the channel's. -/
def testInstr (ins : Byte) (x : Channel) : BitVec 6 := if ins.setWidth 6 = 0#6 then x.instr else ins.setWidth 6

/-- The note case of a test note (R322): lead-in, instrument, pending note without transpose, and, when frozen, the
tick counter that brings tick 0 after the gate-timer's count. -/
def testNoteStart (n ins : Byte) (c : Chan) (s : State) : State :=
  let i := testInstr ins (s.ch c)
  let g := s.instrByte i .gatetimer
  (leadIn c g s).modCh c fun x =>
    { x with
      instr := i
      newnote := n
      nnPend := true
      tick := if s.playing then x.tick else (gatetimerCount g).setWidth 8 + 1#8
      gatetimer := if s.playing then x.gatetimer else gatetimerCount g }

/-- `play_test_note` on a channel, by the class of the note byte (R322). -/
def testNote (n ins : Byte) (c : Chan) (s : State) : State :=
  match decodeNote n with
  | .nKon => s
  | .nNote _ => testNoteStart n ins c s
  | _ => releaseNote c s

/-- `H.TICK` (R320): one whole tick. -/
def execHTick (s : State) : Host.Outcome State Fault Refusal := hostOp s (runTick s)

/-- `H.ACTION` (R321): the mailbox takes the value; a pending one is replaced. -/
def execHAction (a : BitVec 2) (s : State) : Host.Outcome State Fault Refusal := hostOp s { s with action := a }

/-- `H.TESTNOTE` (R322). -/
def execHTestnote (n ins : Byte) (ch : BitVec 2) (s : State) : Host.Outcome State Fault Refusal :=
  hostOp s (onChannel ch (testNote n ins) s)

/-- `H.RELEASE` (R323). -/
def execHRelease (ch : BitVec 2) (s : State) : Host.Outcome State Fault Refusal :=
  hostOp s (onChannel ch releaseNote s)

/-- `H.ACTIVE` (R324): the mute flag. -/
def execHActive (ch : BitVec 2) (b : Bool) (s : State) : Host.Outcome State Fault Refusal :=
  hostOp s (onChannel ch (fun c t => t.modCh c fun x => { x with mute := !b }) s)

/-- `H.SETSTART` (R325): the start position; bit 7 of the row is dropped. -/
def execHSetstart (ch : BitVec 2) (order row : Byte) (s : State) : Host.Outcome State Fault Refusal :=
  hostOp s (onChannel ch
    (fun c t => t.modCh c fun x => { x with startOrder := order, startRow := row &&& 0x7F#8 }) s)

/-- `H.SETLOOP` (R325). -/
def execHSetloop (b : Bool) (s : State) : Host.Outcome State Fault Refusal := hostOp s { s with loopPattern := b }

end Sys2Proof.Machine
end

