-- ==== Sys2Proof/Machine/Dispatch.lean ====
section
/-! DEFINITION. The meaning of every instruction: one arm per constructor, each one direct call. -/

namespace Sys2Proof.Machine

/-- What an instruction does (the whole opcode table). -/
def exec (i : Instr) (s : State) : Host.Outcome State Fault Refusal :=
  match i with
  | .nRest => Sys2Proof.Machine.execNRest s
  | .nKoff => Sys2Proof.Machine.execNKoff s
  | .nKon => Sys2Proof.Machine.execNKon s
  | .nNote n => Sys2Proof.Machine.execNNote n s
  | .nNone n => Sys2Proof.Machine.execNNone n s
  | .nop d => Sys2Proof.Machine.execNop d s
  | .pup d => Sys2Proof.Machine.execPup d s
  | .pdn d => Sys2Proof.Machine.execPdn d s
  | .tpo d => Sys2Proof.Machine.execTpo d s
  | .vib d => Sys2Proof.Machine.execVib d s
  | .sad d => Sys2Proof.Machine.execSad d s
  | .ssr d => Sys2Proof.Machine.execSsr d s
  | .swv d => Sys2Proof.Machine.execSwv d s
  | .swp d => Sys2Proof.Machine.execSwp d s
  | .spp d => Sys2Proof.Machine.execSpp d s
  | .sfp d => Sys2Proof.Machine.execSfp d s
  | .sfc d => Sys2Proof.Machine.execSfc d s
  | .sco d => Sys2Proof.Machine.execSco d s
  | .smv d => Sys2Proof.Machine.execSmv d s
  | .fnk d => Sys2Proof.Machine.execFnk d s
  | .tmp d => Sys2Proof.Machine.execTmp d s
  | .fwKeep => Sys2Proof.Machine.execFwKeep s
  | .fwWave w => Sys2Proof.Machine.execFwWave w s
  | .fwGoff => Sys2Proof.Machine.execFwGoff s
  | .fwGon => Sys2Proof.Machine.execFwGon s
  | .wKeep r => Sys2Proof.Machine.execWKeep r s
  | .wDelay n r => Sys2Proof.Machine.execWDelay n r s
  | .wWave l r => Sys2Proof.Machine.execWWave l r s
  | .wMute ctl r => Sys2Proof.Machine.execWMute ctl r s
  | .wxNop r => Sys2Proof.Machine.execWxNop r s
  | .wxPup r => Sys2Proof.Machine.execWxPup r s
  | .wxPdn r => Sys2Proof.Machine.execWxPdn r s
  | .wxTpo r => Sys2Proof.Machine.execWxTpo r s
  | .wxVib r => Sys2Proof.Machine.execWxVib r s
  | .wxSad r => Sys2Proof.Machine.execWxSad r s
  | .wxSsr r => Sys2Proof.Machine.execWxSsr r s
  | .wxSwv r => Sys2Proof.Machine.execWxSwv r s
  | .wxSwp r => Sys2Proof.Machine.execWxSwp r s
  | .wxSpp r => Sys2Proof.Machine.execWxSpp r s
  | .wxSfp r => Sys2Proof.Machine.execWxSfp r s
  | .wxSfc r => Sys2Proof.Machine.execWxSfc r s
  | .wxSco r => Sys2Proof.Machine.execWxSco r s
  | .wxSmv r => Sys2Proof.Machine.execWxSmv r s
  | .wxFnk r => Sys2Proof.Machine.execWxFnk r s
  | .wJump r => Sys2Proof.Machine.execWJump r s
  | .pHold r => Sys2Proof.Machine.execPHold r s
  | .pMod n r => Sys2Proof.Machine.execPMod n r s
  | .pSet hi lo => Sys2Proof.Machine.execPSet hi lo s
  | .pJump r => Sys2Proof.Machine.execPJump r s
  | .fCut r => Sys2Proof.Machine.execFCut r s
  | .fMod n r => Sys2Proof.Machine.execFMod n r s
  | .fType ty ctl => Sys2Proof.Machine.execFType ty ctl s
  | .fJump r => Sys2Proof.Machine.execFJump r s
  | .sSlide l r => Sys2Proof.Machine.execSSlide l r s
  | .sVib l r => Sys2Proof.Machine.execSVib l r s
  | .sFunk l r => Sys2Proof.Machine.execSFunk l r s
  | .naKeep => Sys2Proof.Machine.execNaKeep s
  | .naRel o => Sys2Proof.Machine.execNaRel o s
  | .naAbs n => Sys2Proof.Machine.execNaAbs n s
  | .aNone => Sys2Proof.Machine.execANone s
  | .aStart => Sys2Proof.Machine.execAStart s
  | .aPause => Sys2Proof.Machine.execAPause s
  | .aStop => Sys2Proof.Machine.execAStop s
  | .hTick => Sys2Proof.Machine.execHTick s
  | .hAction a => Sys2Proof.Machine.execHAction a s
  | .hTestnote n ins ch => Sys2Proof.Machine.execHTestnote n ins ch s
  | .hRelease ch => Sys2Proof.Machine.execHRelease ch s
  | .hActive ch b => Sys2Proof.Machine.execHActive ch b s
  | .hSetstart ch order row => Sys2Proof.Machine.execHSetstart ch order row s
  | .hSetloop b => Sys2Proof.Machine.execHSetloop b s

end Sys2Proof.Machine
end

