-- ==== Sys2Proof/Machine/Placing.lean ====
section
/-! DEFINITION. Placing a word where the machine fetches its next instruction (assumption log 8): the memory cells or
registers of the fetch, the cursor that names them, the phase that fetches there, and channel 0 as the channel being
stepped. It stands for the host's loading of a song and for the ticks that lead up to the fetch. -/

namespace Sys2Proof.Machine

/-- Store one cell. -/
def putCell (a : Nat) (v : Byte) (s : State) : State := { s with mem := Memory.write s.mem a v }

/-- Store a table entry. -/
def putEntry (k : Table) (p l r : Byte) (s : State) : State :=
  putCell (rightAddr k p) r (putCell (leftAddr k p) l s)

/-- Stand in a phase of channel 0's step, with no request waiting. -/
def standIn (p : Phase) (s : State) : State := { s with phase := p, chan := .c0, requests := [] }

/-- Place a word of a format. A byte of a note stands in row 0 of pattern 0, an entry at address 1 of its table, a
first waveform in the record of channel 0's instrument, a note adjustment as the right byte of a `W.KEEP` entry, a
speed entry at address 1 with the command that reads it latched or dispatched. -/
def placeWord (f : Format) (bytes : List Byte) (s : State) : State :=
  match f, bytes with
  | .note, b :: _ =>
    standIn .getNewNotes (putCell (pattLenAddr 0x00#8) 1#8 (putCell (pattAddr 0x00#8 0x00#8 .note) b
      (s.modCh .c0 fun x => { x with pattnum := 0x00#8, pattrow := 0x00#8 })))
  | .cmd, b :: d :: _ =>
    standIn .dispatch (s.modCh .c0 fun x => { x with newcommand := b.setWidth 4, newcmddata := d })
  | .firstwave, b :: _ => standIn .noteStart (putCell (instrAddr s.ch0.instr .firstwave) b s)
  | .wave, l :: r :: _ => standIn .waveExec (putEntry .wave 1#8 l r (s.modCh .c0 fun x => { x with wavePtr := 1#8 }))
  | .noteadj, r :: _ =>
    standIn .waveExec (putEntry .wave 1#8 0x00#8 r (s.modCh .c0 fun x => { x with wavePtr := 1#8 }))
  | .pulse, l :: r :: _ =>
    standIn .pulseExec (putEntry .pulse 1#8 l r (s.modCh .c0 fun x => { x with pulsePtr := 1#8 }))
  | .filter, l :: r :: _ => standIn .filter (putEntry .filter 1#8 l r { s with filtPtr := 1#8 })
  | .slide, l :: r :: _ =>
    standIn .tickNEffects (putEntry .speed 1#8 l r (s.modCh .c0 fun x => { x with command := 1#4, cmddata := 1#8 }))
  | .vibrato, l :: r :: _ =>
    standIn .tickNEffects (putEntry .speed 1#8 l r (s.modCh .c0 fun x => { x with command := 4#4, cmddata := 1#8 }))
  | .funk, l :: r :: _ =>
    standIn .dispatch (putEntry .speed 1#8 l r
      (s.modCh .c0 fun x => { x with newcommand := 0xE#4, newcmddata := 1#8 }))
  | .action, b :: _ => standIn .actions { s with action := b.setWidth 2 }
  | _, _ => s

end Sys2Proof.Machine
end

