-- ==== Sys2Proof/Machine/Requests.lean ====
section
/-! DEFINITION. What the host does between ticks beside its operations: it stores to the song memories (R71, R85) and
it asserts reset (R64, R360). -/

namespace Sys2Proof.Machine

/-- Reset asserted (R360): every register as in the reset table; the song memories keep their contents and
the ROM is constant (R361), and the host's later requests stay waiting. A tick in progress is abandoned. -/
def resetBlock (rest : List Request) (s : State) : State :=
  { State.reset with mem := s.mem, freqRom := s.freqRom, requests := rest }

/-- Store one cell of a song memory (R71, R88); an address that names no cell faults (R70). -/
def storeCell (a : Nat) (v : Byte) (s : State) : Host.Outcome State Fault Refusal :=
  if Memory.mapped a then .next { s with mem := Memory.write s.mem a v } else .fault (.noSuchCell a)

/-- A step that fetches nothing: between ticks, the store at the head of the requests; inside a tick, the phase. -/
def serveOrAdvance (s : State) : Host.Outcome State Fault Refusal :=
  match s.phase, s.requests with
  | .idle, .store a v :: rest => storeCell a v { s with requests := rest }
  | _, _ => .next (advance s)

end Sys2Proof.Machine
end

