-- ==== Sys2Proof/Machine/Step.lean ====
section
/-! DEFINITION. One step of the machine: what it fetches, decoded and run. Between ticks that is one request of the
host, and a whole tick is one step (R80, R320); in a state that stands inside a tick it is one phase. -/

namespace Sys2Proof.Machine

/-- One step. A reset that waits at the head of the requests is taken first, whatever the phase (R360). -/
def step (s : State) : Host.Outcome State Fault Refusal :=
  match s.requests with
  | .reset :: rest => .next (resetBlock rest s)
  | _ =>
    match fetch s with
    | .nothing => serveOrAdvance s
    | .host h => exec (decodeHost h) (beforeExec s)
    | .word f bytes =>
      match decode f bytes with
      | .ok i => onNext (afterExec s.phase) (exec i (beforeExec s))
      | .error _ => .refused .undecoded

/-- The state with a table word placed where the next step fetches (assumption logs 5 and 8). -/
def State.withFetchWord (s : State) (nbits w : Nat) : State :=
  match tableFormat nbits w with
  | none => s
  | some f => placeWord f (tableBytes f w) s

end Sys2Proof.Machine
end

