-- ==== Sys2Proof/Safety.lean ====
section
/-! DEFINITION. What counts as a legal state (R61), the words frames are stated in, and what a safe run asks of the
host: a state keeps the invariants, and a step never stops unless the host stores to a cell that does not exist. -/

namespace Sys2Proof.Machine

/-! ## Invariants (R61) -/

/-- The per-channel invariants I1, I2, I3, I5, I9 and I10 of R61, and the bound R144 gives on the start row. -/
abbrev Channel.Inv (x : Channel) : Prop :=
  x.instr ≠ 0#6 ∧ (x.gate = 0xFE#8 ∨ x.gate = 0xFF#8) ∧ x.command ≤ 4#4 ∧ x.tempo < 0x80#8 ∧
  (x.pattrow = Config.pattEnd ∨ x.pattrow < 128#8) ∧ x.pattnum < 208#8 ∧ x.startRow < 128#8

/-- The invariants of R61 that every step keeps: the per-channel ones, I8 (the type bits), and the canonical form of
the song memories. I6 and I7 hold by the widths of the registers; I4 is `State.WaveDelayBounded`; I11 is a property of
a sequencer run (R171). -/
abbrev State.Inv (s : State) : Prop :=
  s.ch0.Inv ∧ s.ch1.Inv ∧ s.ch2.Inv ∧ s.filtType &&& 0x8F#8 = 0#8 ∧ Memory.wf s.mem = true

/-- Why I4 of R61 holds of a channel: its delay counter is 0, or it counts up to the delay entry under its cursor. -/
abbrev Channel.DelayBounded (s : State) (x : Channel) : Prop :=
  x.wavetime = 0x00#8 ∨
    (x.wavePtr ≠ 0x00#8 ∧ x.wavetime ≤ s.left .wave x.wavePtr ∧ s.left .wave x.wavePtr ≤ 0x0F#8)

/-- The delay counters of all channels are bounded so. A host store may change the entry under a cursor (R88), so this
holds only while the wave table is not edited (assumption log 9). -/
abbrev State.WaveDelayBounded (s : State) : Prop :=
  s.ch0.DelayBounded s ∧ s.ch1.DelayBounded s ∧ s.ch2.DelayBounded s

/-! ## Frames -/

/-- The eight shared filter, volume and tempo registers (R20) are unchanged. -/
def SameShared (s t : State) : Prop :=
  t.filtPtr = s.filtPtr ∧ t.filtTime = s.filtTime ∧ t.filtType = s.filtType ∧ t.filtCutoff = s.filtCutoff ∧
  t.filtCtrl = s.filtCtrl ∧ t.fader = s.fader ∧ t.funk0 = s.funk0 ∧ t.funk1 = s.funk1

/-- The control and status registers (R51 to R55) are unchanged. -/
def SameControl (s t : State) : Prop :=
  t.playing = s.playing ∧ t.action = s.action ∧ t.fatal = s.fatal ∧ t.loopPattern = s.loopPattern

/-- The control and status registers after a rule that raises cause `k` exactly when `b` (R331). -/
def ControlAfter (b : Bool) (k : Cause) (s t : State) : Prop :=
  t.playing = s.playing ∧ t.loopPattern = s.loopPattern ∧
  t.fatal = (if b then s.fatal ||| causeBit k else s.fatal) ∧ t.action = (if b then 3#2 else s.action)

/-- The registers of every other channel are unchanged. -/
def SameOthers (c : Chan) (s t : State) : Prop := ∀ d, d ≠ c → t.ch d = s.ch d

/-- The registers of every channel are unchanged. -/
def SameChannels (s t : State) : Prop := ∀ d, t.ch d = s.ch d

/-- Every image byte but those listed is unchanged. -/
def SameImageBut (l : List (Fin 25)) (s t : State) : Prop := ∀ a, a ∉ l → t.regAt a = s.regAt a

/-- Every cell of the song memories reads as before, and the frequency ROM is unchanged. -/
def SameCells (s t : State) : Prop := (∀ a, Memory.read t.mem a = Memory.read s.mem a) ∧ t.freqRom = s.freqRom

/-- The channel being stepped and the host's requests are unchanged. -/
def SamePlace (s t : State) : Prop := t.chan = s.chan ∧ t.requests = s.requests

/-- Nothing but the registers of the channel being stepped (and the phase) may have changed. -/
def OnlyChannel (s t : State) : Prop :=
  SamePlace s t ∧ SameOthers s.chan s t ∧ SameShared s t ∧ SameControl s t ∧ SameImageBut [] s t ∧ SameCells s t

/-- Nothing but shared registers (and the phase) may have changed. -/
def OnlyShared (s t : State) : Prop :=
  SamePlace s t ∧ SameChannels s t ∧ SameControl s t ∧ SameImageBut [] s t ∧ SameCells s t

/-- Nothing but the listed image bytes (and the phase) may have changed. -/
def OnlyImage (l : List (Fin 25)) (s t : State) : Prop :=
  SamePlace s t ∧ SameChannels s t ∧ SameShared s t ∧ SameControl s t ∧ SameImageBut l s t ∧ SameCells s t

/-- Nothing but a channel's registers, and `FATAL` and `ACTION` if the cause is raised, may have changed (and the
phase). -/
def OnlyChannelOrRaise (b : Bool) (k : Cause) (s t : State) : Prop :=
  SamePlace s t ∧ SameOthers s.chan s t ∧ SameShared s t ∧ ControlAfter b k s t ∧ SameImageBut [] s t ∧ SameCells s t

/-- Nothing but registers of channels may have changed. -/
def OnlyChannels (s t : State) : Prop :=
  t.phase = s.phase ∧ SamePlace s t ∧ SameShared s t ∧ SameControl s t ∧ SameImageBut [] s t ∧ SameCells s t

/-- A host operation left the place, the shared and control registers, the other channels, the image but the bytes
listed, and every cell alone. -/
def OnlyChannelOf (c : Chan) (l : List (Fin 25)) (s t : State) : Prop :=
  t.phase = s.phase ∧ SamePlace s t ∧ SameOthers c s t ∧ SameShared s t ∧ SameControl s t ∧ SameImageBut l s t ∧
  SameCells s t

/-! ## The words statements about walkers are made in -/

/-- A channel whose wave entry has been passed (R236). -/
def Channel.passed (x : Channel) : Channel := { x with wavetime := 0x00#8, wavePtr := x.wavePtr + 1#8 }

/-- A channel after the note adjustment `r` (R238). -/
def Channel.adjusted (rom : Vector Word 96) (r : Byte) (x : Channel) : Channel :=
  if r = 0x80#8 then x
  else
    let n : BitVec 7 := if r < 0x80#8 then (r + x.note).setWidth 7 else r.setWidth 7
    { x with freq := freqAt rom (n.setWidth 8), vibtime := 0x00#8, lastnote := n }

/-- Where a channel goes after a note adjustment (R150, R238). -/
def phaseAfterAdjust (r : Byte) : Phase := if r = 0x80#8 then .tickNEffects else .pulseExec

/-- A channel after one pulse modulation step by `r` (R282). -/
def Channel.pulseStepped (r : Byte) (x : Channel) : Channel :=
  { x with pulse := x.pulse + r.signExtend 12, pulsetime := x.pulsetime - 1#8,
           pulsePtr := if x.pulsetime = 1#8 then x.pulsePtr + 1#8 else x.pulsePtr }

/-- Where a channel goes after its pulse walker (R156). -/
def phaseAfterPulse (s : State) : Phase :=
  if s.playing = true ∧ (s.ch s.chan).tick = (s.ch s.chan).gatetimer.setWidth 8 then .getNewNotes else .nextChannel

/-- No reset waits at the head of the requests. -/
def State.resetWaiting (s : State) : Bool :=
  match s.requests with
  | .reset :: _ => true
  | _ => false

/-- The state after an instruction; the same state where it has no next one. -/
def afterInstr (i : Instr) (s : State) : State := settled s (exec i s)

/-! ## The phases of a tick -/

/-- The state after `n` phases of the tick called at `s` (R140, R150); it stays as it is once the tick is over. -/
def tickAt (n : Nat) (s : State) : State := microStep^[n] (s.goto .actions)

/-- A rule of R308 that runs inside a tick writes the envelope byte `7c + k`, for `k` 5 or 6, in the phase `s` stands
in: the release of a Pause or a Stop (R143), a note start (R177), the commands `SAD` and `SSR` (R205, R206) and their
embedded forms (R245, R246), and the hard restart at the fetch (R180). -/
def WritesEnvelope (c : Chan) (k : Fin 7) (s : State) : Prop :=
  let x := s.ch c
  let slot := (s.pattByte x.pattnum x.pattrow .instr).setWidth 6
  let n := s.pattByte x.pattnum x.pattrow .note
  (s.phase = .actions ∧ (s.action = 2#2 ∨ s.action = 3#2)) ∨
  (s.phase = .noteStart ∧ s.chan = c) ∨
  (s.phase = .dispatch ∧ s.chan = c ∧ x.newcommand = if k = 5 then 5#4 else 6#4) ∨
  (s.phase = .waveExec ∧ s.chan = c ∧ x.wavePtr ≠ 0x00#8 ∧
    s.left .wave x.wavePtr = if k = 5 then 0xF5#8 else 0xF6#8) ∨
  (s.phase = .getNewNotes ∧ s.chan = c ∧ ¬ (x.pattrow = 0xFF#8 ∨ 128#8 ≤ x.pattrow ∨ s.pattLen x.pattnum ≤ x.pattrow) ∧
    0x60#8 ≤ n ∧ n ≤ 0xBF#8 ∧ (s.pattByte x.pattnum x.pattrow .cmd).setWidth 4 ≠ 3#4 ∧
    s.instrByte (if slot = 0#6 then x.instr else slot) .gatetimer &&& 0xC0#8 = 0x00#8)

/-! ## The bits of a word that are used (R103, R110, R111, R114, R115) -/

/-- The bytes of a word with the ignored bits cleared. -/
def usedBits : Format → List Byte → List Byte
  | .cmd, [b, d] => [b &&& 0x0F#8, d]
  | .action, [b] => [b &&& 0x03#8]
  | .pulse, [l, r] => if 0x80#8 ≤ l ∧ l ≠ 0xFF#8 then [l &&& 0x8F#8, r] else [l, r]
  | .filter, [l, r] => if 0x80#8 ≤ l ∧ l ≠ 0xFF#8 then [l &&& 0xF0#8, r] else [l, r]
  | _, bytes => bytes

/-! ## The cells of the song memories -/

/-- A cell of a song memory, named by its space and its index there (R70). -/
inductive SongCell where
  | instr (i : BitVec 6) (f : InstrField)
  | left (k : Table) (p : Byte)
  | right (k : Table) (p : Byte)
  | orderTrans (c : Chan) (i : Byte)
  | orderPatt (c : Chan) (i : Byte)
  | songLen
  | songLoop
  | pattLen (p : Byte)
  | patt (p r : Byte) (f : RowField)
deriving DecidableEq, Repr

/-- The index lies in its space (R72 to R75): tables from 1, order rows below 255, patterns below 208, rows below
128. -/
def SongCell.inRange : SongCell → Bool
  | .instr _ _ | .songLen | .songLoop => true
  | .left _ p | .right _ p => p != 0x00#8
  | .orderTrans _ i | .orderPatt _ i => i != 0xFF#8
  | .pattLen p => decide (p < 208#8)
  | .patt p r _ => decide (p < 208#8) && decide (r < 128#8)

/-- The model's address of a cell (assumption log 1). -/
def SongCell.addr : SongCell → Nat
  | .instr i f => instrAddr i f
  | .left k p => leftAddr k p
  | .right k p => rightAddr k p
  | .orderTrans c i => orderTransAddr c i
  | .orderPatt c i => orderPattAddr c i
  | .songLen => songLenAddr
  | .songLoop => songLoopAddr
  | .pattLen p => pattLenAddr p
  | .patt p r f => pattAddr p r f

/-! ## Safe runs -/

/-- The next request, if it is a store, names a cell that exists. -/
def State.hostStoresExist (s : State) : Bool :=
  match s.requests with
  | .store a _ :: _ => Memory.mapped a
  | _ => true

end Sys2Proof.Machine
end

