-- ==== Sys2Proof/Certificates/Slice0/Obligations.lean ====
section
/-! DEFINITION. The statements for the provers. Each docstring names the rule of the spec it formalises. -/

open Sys2Proof Sys2Proof.Machine

/-! ## Encoding -/

/-- R100 to R115: decoding the bytes the encoder writes gives the instruction back, for every well-formed instruction
that has a word, with every operand at every value; and every other instruction is a host operation, which the call it
is issued as at the port gives back (R114), as each call gives back itself. -/
def Obligations.DecodeInvertsEncode : Prop :=
  (∀ (i : Instr) (f : Format), i.wf = true → i.format = some f → decode f (encode i) = .ok i) ∧
  (∀ i : Instr, i.format = none → ∃ h, encodeHost i = some h ∧ decodeHost h = i) ∧
  (∀ h : HostCall, encodeHost (decodeHost h) = some h ∧ (decodeHost h).format = none)

/-- R115: every word with enough bytes decodes to a well-formed instruction of its format; a shorter one is rejected
by name. -/
def Obligations.EveryWordDecodes : Prop :=
  ∀ (f : Format) (bytes : List Byte),
    if bytes.length < f.size then decode f bytes = .error (.tooShort f)
    else ∃ i, decode f bytes = .ok i ∧ i.wf = true ∧ i.format = some f

/-- R103, R110, R111, R115: what the encoder writes for a decoded word is that word with its ignored bits cleared, so
no used bit of an encoding is dropped and no ignored bit is read. That the encoder writes 0 in the ignored bits is the
model's choice (assumption log 13: the spec has no encoder), and so is the byte 0x03 masks, in which the model presents
the 2-bit `ACTION` register (R114) to its decoder. -/
def Obligations.OnlyIgnoredBitsAreLost : Prop :=
  ∀ (f : Format) (bytes : List Byte) (i : Instr),
    bytes.length = f.size → decode f bytes = .ok i → encode i = usedBits f bytes

/-- R102, R104, R107, R109, R110, R111, R113, R114: words written out from the tables of those rules decode to the
instructions they stand for. -/
def Obligations.ListedWordsDecode : Prop :=
  decode .note [0x94#8] = .ok (.nNote 0x94#8) ∧ decode .note [0xC1#8] = .ok .nKoff ∧
  decode .cmd [0x03#8, 0x05#8] = .ok (.tpo 0x05#8) ∧ decode .cmd [0x0F#8, 0x85#8] = .ok (.tmp 0x85#8) ∧
  decode .firstwave [0xFE#8] = .ok .fwGoff ∧ decode .firstwave [0x41#8] = .ok (.fwWave 0x41#8) ∧
  decode .wave [0x03#8, 0x80#8] = .ok (.wDelay 3#4 0x80#8) ∧ decode .wave [0xE1#8, 0x80#8] = .ok (.wMute 1#4 0x80#8) ∧
  decode .wave [0xFE#8, 0x07#8] = .ok (.wxFnk 0x07#8) ∧ decode .wave [0xFF#8, 0x02#8] = .ok (.wJump 0x02#8) ∧
  decode .pulse [0xF5#8, 0xFF#8] = .ok (.pSet 5#4 0xFF#8) ∧ decode .filter [0xA5#8, 0x07#8] = .ok (.fType 2#3 0x07#8) ∧
  decode .slide [0x80#8, 0x02#8] = .ok (.sSlide 0x80#8 0x02#8) ∧ decode .noteadj [0xB0#8] = .ok (.naAbs 0x30#7) ∧
  decode .action [0x03#8] = .ok .aStop

/-! ## The step -/

/-- R85, R88: where the machine stands before a word that decodes to `i`, one step is the meaning of `i` on the state
the fetch leaves, followed by what the phase does after its instruction. -/
def Obligations.StepRunsFetchedInstruction : Prop :=
  ∀ (s : State) (f : Format) (bytes : List Byte) (i : Instr),
    s.resetWaiting = false → fetch s = .word f bytes → decode f bytes = .ok i →
    step s = onNext (afterExec s.phase) (exec i (beforeExec s)) ∧
    (s.phase = .filter ∨ s.phase = .waveExec ∨ s.phase = .pulseExec → step s = exec i s)

/-- R62, R85, R360, R361, and the model's queue of requests (assumption log 7): between ticks a step serves the request
at the head of the queue, and with none waiting it is the next tick; a store writes its cell, and a store to an address
that no cell has (the map is log 1's) ends in the fault `noSuchCell`, which is the model's inference (log 12). A reset
is taken at the head of the queue in any phase and keeps the later requests (both the model's choice, log 11), so a
tick in progress is abandoned: every register takes its reset value, and the song memories and the frequency ROM keep
their contents. -/
def Obligations.StepServesHostRequests : Prop :=
  ∀ (s : State),
    (∀ rest, s.requests = .reset :: rest →
      step s = .next { State.reset with mem := s.mem, freqRom := s.freqRom, requests := rest }) ∧
    (s.phase = .idle → s.requests = [] → step s = exec .hTick s) ∧
    (∀ h rest, s.phase = .idle → s.requests = .call h :: rest →
      step s = exec (decodeHost h) { s with requests := rest }) ∧
    (∀ a v rest, s.phase = .idle → s.requests = .store a v :: rest →
      step s = if Memory.mapped a = true then .next { s with requests := rest, mem := Memory.write s.mem a v }
               else .fault (.noSuchCell a))

/-- R140, R150: every transition of the tick, with the note start and the dispatch of tick 0 as phases of their own
(assumption log 2). A walker whose cursor is 0 only passes the tick on: nothing but the phase changes (R231, R280,
R290). -/
def Obligations.PhaseTransitions : Prop :=
  ∀ (s : State), s.resetWaiting = false →
    let x := s.ch s.chan
    let l := s.left .wave x.wavePtr
    (s.phase = .actions → ∃ t, step s = .next t ∧ t.phase = .filter) ∧
    (s.phase = .filter → ∃ t, step s = .next t ∧
      t.phase =
        if s.filtPtr ≠ 0x00#8 ∧ s.left .filter s.filtPtr = 0xFF#8 ∧ s.right .filter s.filtPtr ≠ 0x00#8 ∧
            s.left .filter (s.right .filter s.filtPtr) ≠ 0xFF#8 then .filter
        else .sharedOut) ∧
    (s.phase = .filter → s.filtPtr = 0x00#8 → step s = .next (s.goto .sharedOut)) ∧
    (s.phase = .sharedOut → ∃ t, step s = .next t ∧ t.phase = .enter ∧ t.chan = .c0) ∧
    (s.phase = .enter → ∃ t, step s = .next t ∧ t.phase = if x.tick = 1#8 then .tick0 else .tickN) ∧
    (s.phase = .tickN → ∃ t, step s = .next t ∧ t.phase = .waveExec) ∧
    (s.phase = .tick0 → ∃ t, step s = .next t ∧
      t.phase = if x.nnPend = true ∧ x.newcommand ≠ 3#4 then .noteStart else .dispatch) ∧
    (s.phase = .noteStart → ∃ t, step s = .next t ∧ t.phase = .dispatch) ∧
    (s.phase = .dispatch → ∃ t, step s = .next t ∧
      t.phase = if x.nnPend = true ∧ x.newcommand ≠ 3#4 then .nextChannel else .waveExec) ∧
    (s.phase = .waveExec → ∃ t, step s = .next t ∧
      t.phase =
        if x.wavePtr = 0x00#8 then .tickNEffects
        else if l = 0xFF#8 then
          (if s.right .wave x.wavePtr = 0x00#8 ∨ s.left .wave (s.right .wave x.wavePtr) = 0xFF#8 then .tickNEffects
           else .waveExec)
        else if 0xF0#8 ≤ l then .pulseExec
        else if 0x01#8 ≤ l ∧ l ≤ 0x0F#8 ∧ x.wavetime ≠ l then .tickNEffects
        else if s.right .wave x.wavePtr = 0x80#8 then .tickNEffects else .pulseExec) ∧
    (s.phase = .waveExec → x.wavePtr = 0x00#8 → step s = .next (s.goto .tickNEffects)) ∧
    (s.phase = .tickNEffects → ∃ t, step s = .next t ∧ t.phase = .pulseExec) ∧
    (s.phase = .pulseExec → x.pulsePtr = 0x00#8 → step s = .next (s.goto (phaseAfterPulse s))) ∧
    (s.phase = .pulseExec → ∃ t, step s = .next t ∧
      t.phase =
        if x.pulsePtr ≠ 0x00#8 ∧ s.left .pulse x.pulsePtr = 0xFF#8 ∧ s.right .pulse x.pulsePtr ≠ 0x00#8 ∧
            s.left .pulse (s.right .pulse x.pulsePtr) ≠ 0xFF#8 then .pulseExec
        else phaseAfterPulse s) ∧
    (s.phase = .getNewNotes → ∃ t, step s = .next t ∧ t.phase = .nextChannel) ∧
    (s.phase = .nextChannel → ∃ t, step s = .next t ∧
      t.phase = (if s.chan = .c2 then .idle else .enter) ∧
      t.chan = match s.chan with | .c0 => .c1 | .c1 => .c2 | .c2 => .c0)

/-! ## Invariants -/

/-- R61, R63: the invariants hold after reset. -/
def Obligations.ResetHasInvariant : Prop := State.reset.Inv ∧ State.reset.WaveDelayBounded

/-- R61 (I1, I2, I3, I5, I8, I9, I10) and the canonical form of the song memories: every step keeps them, whatever the
host asks for; and from any state at all no step writes the frequency ROM (R76, R361). -/
def Obligations.StepKeepsInvariant : Prop :=
  ∀ (s t : State), step s = .next t → (s.Inv → t.Inv) ∧ t.freqRom = s.freqRom

/-- R61 (I4): while the host does not edit the song, every step keeps each delay counter within the delay entry under
its cursor; so no delay counter passes 0x0F. -/
def Obligations.StepKeepsWaveDelayBound : Prop :=
  ∀ (s : State), s.WaveDelayBounded →
    (∀ c, (s.ch c).wavetime ≤ 0x0F#8) ∧
    (∀ t, ¬ (s.phase = .idle ∧ ∃ a v rest, s.requests = .store a v :: rest) → step s = .next t → t.WaveDelayBounded)

/-! ## Memory -/

/-- The model's memory (assumption logs 1 and 4): in canonical form a written cell reads as the byte written and every
other cell as before, and song memories that read alike are equal. -/
def Obligations.MemoryWriteIsExact : Prop :=
  (∀ (m : Memory) (a b : Nat) (v : Byte), Memory.wf m = true →
    Memory.read (Memory.write m a v) b = if b = a then v else Memory.read m b) ∧
  (∀ (m m' : Memory), Memory.wf m = true → Memory.wf m' = true →
    (∀ a, Memory.read m a = Memory.read m' a) → m = m')

/-- R70, R72 to R75, R79 and the model's address map (assumption log 1): every cell of every song memory has an address
of its own, and every mapped address is the address of a cell. -/
def Obligations.EveryCellHasItsOwnAddress : Prop :=
  (∀ c : SongCell, c.inRange = true → Memory.mapped c.addr = true) ∧
  (∀ c d : SongCell, c.inRange = true → d.inRange = true → c.addr = d.addr → c = d) ∧
  (∀ a, Memory.mapped a = true → ∃ c : SongCell, c.inRange = true ∧ c.addr = a)

/-! ## Reset -/

/-- R63: reset loads exactly the values of the table, and the song memories and the frequency ROM are not reset. -/
def Obligations.ResetLoadsTheTable : Prop :=
  ∀ (s : State) (rest : List Request),
    let t := resetBlock rest s
    (∀ c, t.ch c =
      { trans := 0x00#8, instr := 1#6, note := 0x00#8, lastnote := 0x00#7, nnPend := false, newnote := 0x00#8,
        songptr := 0x00#8, curOrder := 0x00#8, pattnum := 0x00#8, pattrow := 0xFF#8, freq := 0x0000#16,
        gate := 0xFE#8, wave := 0x00#8, pulse := 0x000#12, wavePtr := 0x00#8, wavetime := 0x00#8,
        pulsePtr := 0x00#8, pulsetime := 0x00#8, vibtime := 0x00#8, vibdelay := 0x00#8, command := 0#4,
        cmddata := 0x00#8, newcommand := 0#4, newcmddata := 0x00#8, tick := 5#8, tempo := 5#8, mute := false,
        gatetimer := 0#6, startOrder := 0x00#8, startRow := 0x00#8 }) ∧
    t.filtPtr = 0x00#8 ∧ t.filtTime = 0x00#8 ∧ t.filtType = 0x00#8 ∧ t.filtCutoff = 0x00#8 ∧ t.filtCtrl = 0x00#8 ∧
    t.fader = 0xF#4 ∧ t.funk0 = 8#8 ∧ t.funk1 = 5#8 ∧ t.playing = false ∧ t.action = 0#2 ∧ t.fatal = 0#7 ∧
    t.loopPattern = false ∧ (∀ a, t.regAt a = 0x00#8) ∧ Config.optRealtime = false ∧ Config.optPulse = false ∧
    t.mem = s.mem ∧ t.freqRom = s.freqRom

/-! ## Modes and fatal conditions -/

/-- R340: in either mode no instruction of a song can stop, and none reaches the mode, the pattern loop, a start
position, a mute flag, the song memories, the frequency ROM or the host's requests; the mailbox and `FATAL` change only as a fatal
condition changes them. -/
def Obligations.SongInstructionsCannotReachControl : Prop :=
  ∀ (i : Instr) (f : Format) (s : State), i.format = some f → f ≠ .action →
    ∃ t, exec i s = .next t ∧ t.playing = s.playing ∧ t.loopPattern = s.loopPattern ∧ t.mem = s.mem ∧
      t.freqRom = s.freqRom ∧ t.requests = s.requests ∧ t.chan = s.chan ∧
      (∀ c, (t.ch c).startOrder = (s.ch c).startOrder ∧ (t.ch c).startRow = (s.ch c).startRow ∧
        (t.ch c).mute = (s.ch c).mute) ∧
      ((t.action = s.action ∧ t.fatal = s.fatal) ∨ (t.action = 3#2 ∧ ∃ k, t.fatal = s.fatal ||| causeBit k))

/-- R330, R331: raising cause `k` sets bit `k - 1` of `FATAL`, keeps the other bits, posts Stop, and writes nothing
else. -/
def Obligations.FatalSetsItsBitAndPostsStop : Prop :=
  ∀ (k : Cause) (s : State),
    let n := match k with
      | .illegalPattern => 1 | .gatetimerExceedsTick => 2 | .jumpIntoJumpWave => 3 | .jumpIntoJumpPulse => 4
      | .jumpIntoJumpFilter => 5 | .illegalWaveCommand => 6 | .emptySong => 7
    (raiseFatal k s).action = 3#2 ∧
    (∀ j < 7, (raiseFatal k s).fatal.getLsbD j = (s.fatal.getLsbD j || decide (j = n - 1))) ∧
    raiseFatal k s = { s with fatal := (raiseFatal k s).fatal, action := (raiseFatal k s).action }

/-! ## Note bytes -/

/-- R102, R106, R180: the note classes. REST and the unused codes do nothing; KEY-OFF and KEY-ON set the gate byte; a
note is queued transposed, and unless the row's command is tone-portamento the gate goes off when bit 6 of the
instrument's gate-timer byte is 0, and the envelope bytes take the hard-restart values when bit 7 is 0 as well. -/
def Obligations.NoteBytes : Prop :=
  ∀ (s : State) (n : Byte),
    let x := s.ch s.chan
    let g := s.instrByte x.instr .gatetimer
    let gateOff := x.newcommand ≠ 3#4 ∧ g &&& 0x40#8 = 0x00#8
    let hardRestart := gateOff ∧ g &&& 0x80#8 = 0x00#8
    exec .nRest s = .next s ∧ exec (.nNone n) s = .next s ∧
    (∃ t, exec .nKoff s = .next t ∧ t.ch s.chan = { x with gate := 0xFE#8 } ∧ OnlyChannel s t ∧ t.phase = s.phase) ∧
    (∃ t, exec .nKon s = .next t ∧ t.ch s.chan = { x with gate := 0xFF#8 } ∧ OnlyChannel s t ∧ t.phase = s.phase) ∧
    (∃ t, exec (.nNote n) s = .next t ∧
      t.ch s.chan = { x with newnote := n + x.trans, nnPend := true, gate := if gateOff then 0xFE#8 else x.gate } ∧
      t.regAt (regIdx s.chan 5) = (if hardRestart then 0x0F#8 else s.regAt (regIdx s.chan 5)) ∧
      t.regAt (regIdx s.chan 6) = (if hardRestart then 0x00#8 else s.regAt (regIdx s.chan 6)) ∧
      SameImageBut [regIdx s.chan 5, regIdx s.chan 6] s t ∧ SamePlace s t ∧ SameOthers s.chan s t ∧
      SameShared s t ∧ SameControl s t ∧ SameCells s t ∧ t.phase = s.phase)

/-- R180: a row fetch. With no row under the cursor only the cursor becomes the end marker. Else the row's instrument
(unless 0), command and data are latched, the cursor moves to the next row or the end marker, and the row's note byte
is run as its class says. -/
def Obligations.RowFetch : Prop :=
  ∀ (s : State), s.phase = .getNewNotes → s.resetWaiting = false →
    let x := s.ch s.chan
    let p := x.pattnum
    let r := x.pattrow
    let i := (s.pattByte p r .instr).setWidth 6
    let n := s.pattByte p r .note
    let u := { x with
      instr := if i = 0#6 then x.instr else i
      newcommand := (s.pattByte p r .cmd).setWidth 4
      newcmddata := s.pattByte p r .data
      pattrow := if s.pattLen p ≤ r + 1#8 ∨ 128#8 ≤ r + 1#8 then 0xFF#8 else r + 1#8 }
    let g := s.instrByte u.instr .gatetimer
    let isNote := ¬ (n = 0xC0#8 ∨ n = 0xC1#8 ∨ n = 0xC2#8) ∧ 0x60#8 ≤ n ∧ n ≤ 0xBF#8
    let gateOff := u.newcommand ≠ 3#4 ∧ g &&& 0x40#8 = 0x00#8
    let hardRestart := isNote ∧ gateOff ∧ g &&& 0x80#8 = 0x00#8
    ∃ t, step s = .next t ∧ t.phase = .nextChannel ∧ SamePlace s t ∧ SameOthers s.chan s t ∧ SameShared s t ∧
      SameControl s t ∧ SameCells s t ∧ SameImageBut [regIdx s.chan 5, regIdx s.chan 6] s t ∧
      if r = 0xFF#8 ∨ 128#8 ≤ r ∨ s.pattLen p ≤ r then
        t.ch s.chan = { x with pattrow := 0xFF#8 } ∧ SameImageBut [] s t
      else
        t.ch s.chan =
          (if n = 0xC1#8 then { u with gate := 0xFE#8 }
           else if n = 0xC2#8 then { u with gate := 0xFF#8 }
           else if isNote then
             { u with newnote := n + x.trans, nnPend := true, gate := if gateOff then 0xFE#8 else x.gate }
           else u) ∧
        t.regAt (regIdx s.chan 5) = (if hardRestart then 0x0F#8 else s.regAt (regIdx s.chan 5)) ∧
        t.regAt (regIdx s.chan 6) = (if hardRestart then 0x00#8 else s.regAt (regIdx s.chan 6))

/-! ## Note start -/

/-- R107, R177: the four first-waveform classes. -/
def Obligations.FirstWaveformBytes : Prop :=
  ∀ (s : State) (w : Byte),
    exec .fwKeep s = .next s ∧
    (∃ t, exec (.fwWave w) s = .next t ∧ t.ch s.chan = { s.ch s.chan with wave := w, gate := 0xFF#8 } ∧
      OnlyChannel s t ∧ t.phase = s.phase) ∧
    (∃ t, exec .fwGoff s = .next t ∧ t.ch s.chan = { s.ch s.chan with gate := 0xFE#8 } ∧ OnlyChannel s t ∧
      t.phase = s.phase) ∧
    (∃ t, exec .fwGon s = .next t ∧ t.ch s.chan = { s.ch s.chan with gate := 0xFF#8 } ∧ OnlyChannel s t ∧
      t.phase = s.phase)

/-- R177: a note start sets waveform and gate from the first-waveform byte, loads the wave cursor (0 too), the pulse
and filter cursors unless 0, and writes the envelope bytes; each load of a cursor that names a jump is fatal, and the
cursor keeps the address. -/
def Obligations.NoteStart : Prop :=
  ∀ (s : State), s.phase = .noteStart → s.resetWaiting = false →
    let x := s.ch s.chan
    let fw := s.instrByte x.instr .firstwave
    let pw := s.instrByte x.instr .ptrWave
    let pp := s.instrByte x.instr .ptrPulse
    let pf := s.instrByte x.instr .ptrFilter
    let badW := pw ≠ 0x00#8 ∧ s.left .wave pw = 0xFF#8
    let badP := pp ≠ 0x00#8 ∧ s.left .pulse pp = 0xFF#8
    let badF := pf ≠ 0x00#8 ∧ s.left .filter pf = 0xFF#8
    ∃ t, step s = .next t ∧ t.phase = .dispatch ∧ SamePlace s t ∧ SameOthers s.chan s t ∧ SameCells s t ∧
      t.ch s.chan =
        { x with
          wave := if fw = 0x00#8 ∨ 0xFE#8 ≤ fw then x.wave else fw
          gate := if fw = 0x00#8 then x.gate else if fw = 0xFE#8 then 0xFE#8 else 0xFF#8
          wavePtr := pw, wavetime := 0x00#8
          pulsePtr := if pp = 0x00#8 then x.pulsePtr else pp
          pulsetime := if pp = 0x00#8 then x.pulsetime else 0x00#8 } ∧
      t.filtPtr = (if pf = 0x00#8 then s.filtPtr else pf) ∧
      t.filtTime = (if pf = 0x00#8 then s.filtTime else 0x00#8) ∧
      t.filtType = s.filtType ∧ t.filtCutoff = s.filtCutoff ∧ t.filtCtrl = s.filtCtrl ∧ t.fader = s.fader ∧
      t.funk0 = s.funk0 ∧ t.funk1 = s.funk1 ∧ t.playing = s.playing ∧ t.loopPattern = s.loopPattern ∧
      t.fatal = s.fatal ||| (if badW then 0x04#7 else 0#7) ||| (if badP then 0x08#7 else 0#7) |||
        (if badF then 0x10#7 else 0#7) ∧
      t.action = (if badW ∨ badP ∨ badF then 3#2 else s.action) ∧
      t.regAt (regIdx s.chan 5) = s.instrByte x.instr .ad ∧ t.regAt (regIdx s.chan 6) = s.instrByte x.instr .sr ∧
      SameImageBut [regIdx s.chan 5, regIdx s.chan 6] s t

/-! ## Tick 0 and tick N -/

/-- R151: the tick counter is decremented modulo 256; at 0 the channel is at tick 0, otherwise at tick N. -/
def Obligations.EnterDecrementsTheTickCounter : Prop :=
  ∀ (s : State), s.phase = .enter → s.resetWaiting = false →
    ∃ t, step s = .next t ∧ t.ch s.chan = { s.ch s.chan with tick := (s.ch s.chan).tick - 1#8 } ∧
      OnlyChannel s t ∧ t.phase = if (s.ch s.chan).tick - 1#8 = 0x00#8 then .tick0 else .tickN

/-- R152: after the counter has gone below zero it is reloaded from the tempo, or from the funk slot the tempo names,
which then alternates; a gate-timer above the reloaded value is fatal. -/
def Obligations.TickNReloads : Prop :=
  ∀ (s : State), s.phase = .tickN → s.resetWaiting = false →
    let x := s.ch s.chan
    let v := if 2#8 ≤ x.tempo then x.tempo else if x.tempo = 0x00#8 then s.funk0 else s.funk1
    let wrapped := 0x80#8 ≤ x.tick
    ∃ t, step s = .next t ∧ t.phase = .waveExec ∧
      t.ch s.chan = (if wrapped then
          { x with tick := v, tempo := if 2#8 ≤ x.tempo then x.tempo else x.tempo ^^^ 1#8 }
        else x) ∧
      OnlyChannelOrRaise (decide (wrapped ∧ v < x.gatetimer.setWidth 8)) .gatetimerExceedsTick s t

/-- R157: from a tick 0 on, a channel whose tempo is `T`, at least 2, is at tick N for `T` ticks and at tick 0 on the
next. The first clause says so of the tick counter's two procedures alone, the second of whole ticks of the block, for
every channel: the tempo counts where the first of the ticks reads it, a Start at its head apart. -/
def Obligations.RowPeriodIsTempoPlusOne : Prop :=
  (∀ (s : State) (n : Nat),
    (s.ch s.chan).tick = 0x00#8 → 2#8 ≤ (s.ch s.chan).tempo → (s.ch s.chan).tempo < 0x80#8 →
    n ≤ (s.ch s.chan).tempo.toNat →
    let tickCounter := fun u => if (enterChannel u).phase = Phase.tick0 then enterChannel u else tickN (enterChannel u)
    (tickCounter^[n + 1] s).phase = if n = (s.ch s.chan).tempo.toNat then .tick0 else .tickN) ∧
  (∀ (s : State) (c : Chan) (tempo : Byte) (n : Nat),
    s.phase = .idle → s.action ≠ 1#2 → (s.ch c).tick = 0x00#8 → 2#8 ≤ tempo → tempo < 0x80#8 → n ≤ tempo.toNat →
    (∀ m, (tickAt m s).phase = .tickN → (tickAt m s).chan = c → ((tickAt m s).ch c).tempo = tempo) →
    let before := (afterInstr .hTick)^[n] s
    ∃ t, exec .hTick before = .next t ∧ (t.ch c).tick = tempo - BitVec.ofNat 8 n ∧
      ((∃ m, (tickAt m before).phase = .tick0 ∧ (tickAt m before).chan = c) ↔ n = tempo.toNat))

/-- R153, R174, R175, R176: the first three steps of tick 0. While playing, a channel whose row cursor is at the end
marker goes back to row 0 if the pattern loops and else runs the sequencer; the gate-timer value is reloaded from the
active instrument, playing or frozen; a pending note becomes the note, clears the latched command and arms the
instrument's vibrato. -/
def Obligations.TickZeroReloadsAndTakesTheNote : Prop :=
  ∀ (s : State), s.phase = .tick0 → s.resetWaiting = false →
    let u :=
      if s.playing = true ∧ (s.ch s.chan).pattrow = 0xFF#8 then
        (if s.loopPattern = true then s.setCh s.chan { s.ch s.chan with pattrow := 0x00#8 } else sequencer s.chan s)
      else s
    let x := u.ch s.chan
    let y := { x with gatetimer := (s.instrByte x.instr .gatetimer).setWidth 6 }
    ∃ t, step s = .next t ∧
      t.ch s.chan =
        (if x.nnPend = true then
          { y with note := x.newnote - 0x60#8, command := 0#4, vibdelay := s.instrByte x.instr .vibdelay,
                   cmddata := s.instrByte x.instr .ptrSpeed }
         else y) ∧
      OnlyChannel u t ∧ t.phase = if x.nnPend = true ∧ x.newcommand ≠ 3#4 then .noteStart else .dispatch

/-- R178: after the dispatch a consumed note is no longer pending, and unless the command was tone-portamento the
channel goes straight to its write-out. -/
def Obligations.ConsumedNoteEndsTheTick : Prop :=
  ∀ (s : State), s.phase = .dispatch → s.resetWaiting = false →
    ∃ i u t, decode .cmd [(s.ch s.chan).newcommand.setWidth 8, (s.ch s.chan).newcmddata] = .ok i ∧
      exec i s = .next u ∧ step s = .next t ∧
      t.ch s.chan = { u.ch s.chan with nnPend := false } ∧ OnlyChannel u t ∧
      t.phase = if (s.ch s.chan).nnPend = true ∧ (s.ch s.chan).newcommand ≠ 3#4 then .nextChannel else .waveExec

/-! ## The sequencer -/

/-- R170: a sequencer run reads the order row under the song cursor (the wrap row if the cursor is past the song),
advances and wraps the cursor, and starts the pattern; a pattern number of 208 or more is fatal and pattern 0 is
used. -/
def Obligations.SequencerRun : Prop :=
  ∀ (c : Chan) (s : State),
    let wrap := if s.songLoop < s.songLen then s.songLoop else 0x00#8
    let i := if s.songLen ≤ (s.ch c).songptr then wrap else (s.ch c).songptr
    let p := s.orderPatt c i
    let t := sequencer c s
    t.ch c =
      { s.ch c with
        curOrder := i, trans := s.orderTrans c i
        songptr := if s.songLen ≤ i + 1#8 then wrap else i + 1#8
        pattnum := if 208#8 ≤ p then 0x00#8 else p
        pattrow := 0x00#8 } ∧
    SamePlace s t ∧ SameOthers c s t ∧ SameShared s t ∧ ControlAfter (decide (208#8 ≤ p)) .illegalPattern s t ∧
    SameImageBut [] s t ∧ SameCells s t ∧ t.phase = s.phase

/-- R170, R171: with the cursor below the song length `L`, run `n` (counted from 0) of the sequencer reads row `s + n`
while that is below `L` and then goes round rows `K` to `L - 1`, where `K` is the loop row, or 0 when that is not below
`L`; the cursor never rests at or above `L`, and after the run that read row `L - 1` it is `K`. -/
def Obligations.SequencerLoops : Prop :=
  ∀ (c : Chan) (s : State) (n : Nat),
    (s.ch c).songptr < s.songLen →
    let wrap := if s.songLoop < s.songLen then s.songLoop else 0x00#8
    let first := (s.ch c).songptr.toNat
    let len := s.songLen.toNat
    let loop := wrap.toNat
    let t := (sequencer c)^[n + 1] s
    (t.ch c).curOrder.toNat =
      (if first + n < len then first + n else loop + (first + n - len) % (len - loop)) ∧
    (t.ch c).curOrder < s.songLen ∧ (t.ch c).songptr < s.songLen ∧
    ((t.ch c).curOrder.toNat = len - 1 → (t.ch c).songptr = wrap)

/-! ## Pattern commands -/

/-- R200 to R204: the five commands that latch. No-op latches no command, with the instrument's speed pointer as
operand; portamento clears the vibrato phase, tone-portamento and vibrato keep it. -/
def Obligations.LatchingCommands : Prop :=
  ∀ (s : State) (d : Byte),
    let x := s.ch s.chan
    (∃ t, exec (.nop d) s = .next t ∧
      t.ch s.chan = { x with command := 0#4, cmddata := s.instrByte x.instr .ptrSpeed } ∧ OnlyChannel s t ∧
      t.phase = s.phase) ∧
    (∃ t, exec (.pup d) s = .next t ∧ t.ch s.chan = { x with vibtime := 0x00#8, command := 1#4, cmddata := d } ∧
      OnlyChannel s t ∧ t.phase = s.phase) ∧
    (∃ t, exec (.pdn d) s = .next t ∧ t.ch s.chan = { x with vibtime := 0x00#8, command := 2#4, cmddata := d } ∧
      OnlyChannel s t ∧ t.phase = s.phase) ∧
    (∃ t, exec (.tpo d) s = .next t ∧ t.ch s.chan = { x with command := 3#4, cmddata := d } ∧ OnlyChannel s t ∧
      t.phase = s.phase) ∧
    (∃ t, exec (.vib d) s = .next t ∧ t.ch s.chan = { x with command := 4#4, cmddata := d } ∧ OnlyChannel s t ∧
      t.phase = s.phase)

/-- R77, R205 to R207, R245 to R247: the envelope commands write one image byte of the channel, `7c+5` or `7c+6`, and
set-wave writes any waveform byte; the embedded forms pass the wave entry as well. -/
def Obligations.RegisterCommands : Prop :=
  ∀ (s : State) (d : Byte),
    (∃ t, exec (.sad d) s = .next t ∧ t.regAt (regIdx s.chan 5) = d ∧ OnlyImage [regIdx s.chan 5] s t ∧
      t.phase = s.phase) ∧
    (∃ t, exec (.ssr d) s = .next t ∧ t.regAt (regIdx s.chan 6) = d ∧ OnlyImage [regIdx s.chan 6] s t ∧
      t.phase = s.phase) ∧
    (∃ t, exec (.wxSad d) s = .next t ∧ t.regAt (regIdx s.chan 5) = d ∧ SameImageBut [regIdx s.chan 5] s t ∧
      t.ch s.chan = Channel.passed (s.ch s.chan) ∧ SameOthers s.chan s t ∧ SameShared s t ∧ SameControl s t ∧
      SameCells s t ∧ SamePlace s t ∧ t.phase = .pulseExec) ∧
    (∃ t, exec (.wxSsr d) s = .next t ∧ t.regAt (regIdx s.chan 6) = d ∧ SameImageBut [regIdx s.chan 6] s t ∧
      t.ch s.chan = Channel.passed (s.ch s.chan) ∧ SameOthers s.chan s t ∧ SameShared s t ∧ SameControl s t ∧
      SameCells s t ∧ SamePlace s t ∧ t.phase = .pulseExec) ∧
    (∃ t, exec (.swv d) s = .next t ∧ t.ch s.chan = { s.ch s.chan with wave := d } ∧ OnlyChannel s t ∧
      t.phase = s.phase) ∧
    (∃ t, exec (.wxSwv d) s = .next t ∧ t.ch s.chan = Channel.passed { s.ch s.chan with wave := d } ∧
      OnlyChannel s t ∧ t.phase = .pulseExec)

/-- R105, R208 to R210, R249, R250: the wave, pulse or shared filter cursor restarts at the named instrument's pointer,
slot 0 halting it; bits 7:6 of the operand do not count; a pointer to a jump is fatal and the cursor keeps it. -/
def Obligations.SetPointerCommands : Prop :=
  ∀ (s : State) (d : Byte),
    let slot : BitVec 6 := d.setWidth 6
    let w := if slot = 0#6 then 0x00#8 else s.instrByte slot .ptrWave
    let p := if slot = 0#6 then 0x00#8 else s.instrByte slot .ptrPulse
    let f := if slot = 0#6 then 0x00#8 else s.instrByte slot .ptrFilter
    let loaded := fun t : State =>
      t.filtPtr = f ∧ t.filtTime = 0x00#8 ∧ t.filtType = s.filtType ∧ t.filtCutoff = s.filtCutoff ∧
      t.filtCtrl = s.filtCtrl ∧ t.fader = s.fader ∧ t.funk0 = s.funk0 ∧ t.funk1 = s.funk1 ∧
      ControlAfter (decide (f ≠ 0x00#8 ∧ s.left .filter f = 0xFF#8)) .jumpIntoJumpFilter s t ∧
      SamePlace s t ∧ SameImageBut [] s t ∧ SameCells s t
    (∃ t, exec (.swp d) s = .next t ∧ t.ch s.chan = { s.ch s.chan with wavePtr := w, wavetime := 0x00#8 } ∧
      OnlyChannelOrRaise (decide (w ≠ 0x00#8 ∧ s.left .wave w = 0xFF#8)) .jumpIntoJumpWave s t ∧
      t.phase = s.phase) ∧
    (∃ t, exec (.spp d) s = .next t ∧ t.ch s.chan = { s.ch s.chan with pulsePtr := p, pulsetime := 0x00#8 } ∧
      OnlyChannelOrRaise (decide (p ≠ 0x00#8 ∧ s.left .pulse p = 0xFF#8)) .jumpIntoJumpPulse s t ∧
      t.phase = s.phase) ∧
    (∃ t, exec (.wxSpp d) s = .next t ∧
      t.ch s.chan = Channel.passed { s.ch s.chan with pulsePtr := p, pulsetime := 0x00#8 } ∧
      OnlyChannelOrRaise (decide (p ≠ 0x00#8 ∧ s.left .pulse p = 0xFF#8)) .jumpIntoJumpPulse s t ∧
      t.phase = .pulseExec) ∧
    (∃ t, exec (.sfp d) s = .next t ∧ loaded t ∧ SameChannels s t ∧ t.phase = s.phase) ∧
    (∃ t, exec (.wxSfp d) s = .next t ∧ loaded t ∧ SameOthers s.chan s t ∧
      t.ch s.chan = Channel.passed (s.ch s.chan) ∧ t.phase = .pulseExec)

/-- R211 to R213, R251 to R253: filter control (0 also halts the filter cursor), cutoff, and master volume (below 0x10
only), from a row and from the wave table. -/
def Obligations.FilterAndVolumeCommands : Prop :=
  ∀ (s : State) (d : Byte),
    let control := fun t : State =>
      t.filtCtrl = d ∧ t.filtPtr = (if d = 0x00#8 then 0x00#8 else s.filtPtr) ∧ t.filtTime = s.filtTime ∧
      t.filtType = s.filtType ∧ t.filtCutoff = s.filtCutoff ∧ t.fader = s.fader ∧ t.funk0 = s.funk0 ∧ t.funk1 = s.funk1
    let cutoff := fun t : State =>
      t.filtCutoff = d ∧ t.filtPtr = s.filtPtr ∧ t.filtTime = s.filtTime ∧ t.filtType = s.filtType ∧
      t.filtCtrl = s.filtCtrl ∧ t.fader = s.fader ∧ t.funk0 = s.funk0 ∧ t.funk1 = s.funk1
    let volume := fun t : State =>
      t.fader = (if d.toNat < 16 then BitVec.ofNat 4 d.toNat else s.fader) ∧ t.filtPtr = s.filtPtr ∧
      t.filtTime = s.filtTime ∧ t.filtType = s.filtType ∧ t.filtCutoff = s.filtCutoff ∧ t.filtCtrl = s.filtCtrl ∧
      t.funk0 = s.funk0 ∧ t.funk1 = s.funk1
    let row := fun t : State =>
      SameChannels s t ∧ SameControl s t ∧ SamePlace s t ∧ SameImageBut [] s t ∧ SameCells s t ∧ t.phase = s.phase
    let embedded := fun t : State =>
      t.ch s.chan = Channel.passed (s.ch s.chan) ∧ SameOthers s.chan s t ∧ SameControl s t ∧ SamePlace s t ∧
      SameImageBut [] s t ∧ SameCells s t ∧ t.phase = .pulseExec
    (∃ t, exec (.sfc d) s = .next t ∧ control t ∧ row t) ∧ (∃ t, exec (.wxSfc d) s = .next t ∧ control t ∧ embedded t) ∧
    (∃ t, exec (.sco d) s = .next t ∧ cutoff t ∧ row t) ∧ (∃ t, exec (.wxSco d) s = .next t ∧ cutoff t ∧ embedded t) ∧
    (∃ t, exec (.smv d) s = .next t ∧ volume t ∧ row t) ∧ (∃ t, exec (.wxSmv d) s = .next t ∧ volume t ∧ embedded t)

/-- R214, R215: set-funk-tempo loads the funk table (unless the operand is 0) and puts all three tempos to 0;
set-tempo writes the issuing channel's tempo when bit 7 is set and all three when it is clear. -/
def Obligations.TempoCommands : Prop :=
  ∀ (s : State) (d : Byte),
    (∃ t, exec (.fnk d) s = .next t ∧ (∀ c, t.ch c = { s.ch c with tempo := 0x00#8 }) ∧
      t.funk0 = (if d = 0x00#8 then s.funk0 else s.left .speed d) ∧
      t.funk1 = (if d = 0x00#8 then s.funk1 else s.right .speed d) ∧
      t.filtPtr = s.filtPtr ∧ t.filtTime = s.filtTime ∧ t.filtType = s.filtType ∧ t.filtCutoff = s.filtCutoff ∧
      t.filtCtrl = s.filtCtrl ∧ t.fader = s.fader ∧ SameControl s t ∧ SamePlace s t ∧ SameImageBut [] s t ∧
      SameCells s t ∧ t.phase = s.phase) ∧
    (∃ t, exec (.tmp d) s = .next t ∧
      (∀ c, t.ch c = { s.ch c with
        tempo := if c = s.chan ∨ d.toNat < 128 then BitVec.ofNat 8 (d.toNat % 128) else (s.ch c).tempo }) ∧
      SameShared s t ∧ SameControl s t ∧ SamePlace s t ∧ SameImageBut [] s t ∧ SameCells s t ∧ t.phase = s.phase)

/-! ## The wave table -/

/-- R233 to R236, R238: the entries passed at once. The waveform is kept, set, or set without its select nibble; the
cursor advances and the delay counter clears; then the right byte adjusts the note. -/
def Obligations.WaveEntriesArePassed : Prop :=
  ∀ (s : State) (l r : Byte) (ctl : BitVec 4),
    (∃ t, exec (.wKeep r) s = .next t ∧ t.ch s.chan = Channel.adjusted s.freqRom r (Channel.passed (s.ch s.chan)) ∧
      OnlyChannel s t ∧ t.phase = phaseAfterAdjust r) ∧
    (∃ t, exec (.wWave l r) s = .next t ∧
      t.ch s.chan = Channel.adjusted s.freqRom r (Channel.passed { s.ch s.chan with wave := l }) ∧
      OnlyChannel s t ∧ t.phase = phaseAfterAdjust r) ∧
    (∃ t, exec (.wMute ctl r) s = .next t ∧
      t.ch s.chan = Channel.adjusted s.freqRom r (Channel.passed { s.ch s.chan with wave := 0x0#4 ++ ctl }) ∧
      OnlyChannel s t ∧ t.phase = phaseAfterAdjust r)

/-- R232: one step of a delay entry, whatever the counter holds: equal to `left`, the entry is passed; else the counter
goes up by 1 and the channel goes to its effects. So an entry of `n` ticks reached with the counter at 0 waits for `n`
ticks and is passed on tick `n + 1`. -/
def Obligations.DelayEntries : Prop :=
  (∀ (s : State) (n : BitVec 4) (r : Byte),
    ∃ t, exec (.wDelay n r) s = .next t ∧ OnlyChannel s t ∧
      if (s.ch s.chan).wavetime = 0x0#4 ++ n then
        t.ch s.chan = Channel.adjusted s.freqRom r (Channel.passed (s.ch s.chan)) ∧ t.phase = phaseAfterAdjust r
      else
        t.ch s.chan = { s.ch s.chan with wavetime := (s.ch s.chan).wavetime + 1#8 } ∧ t.phase = .tickNEffects) ∧
  (∀ (s : State) (n : BitVec 4) (r : Byte) (k : Nat),
    n ≠ 0#4 → (s.ch s.chan).wavetime = 0x00#8 → 1 ≤ k → k ≤ n.toNat + 1 →
    ∃ t, exec (.wDelay n r) ((afterInstr (.wDelay n r))^[k - 1] s) = .next t ∧ OnlyChannel s t ∧
      if k ≤ n.toNat then
        t.ch s.chan = { s.ch s.chan with wavetime := BitVec.ofNat 8 k } ∧ t.phase = .tickNEffects
      else
        t.ch s.chan = Channel.adjusted s.freqRom r (Channel.passed (s.ch s.chan)) ∧ t.phase = phaseAfterAdjust r)

/-- R230, R237, R284, R291: a jump takes its cursor to the target, 0 halting it; a target that is itself a jump is
fatal and halts the cursor. R230 executes the target entry in the same step of the walker; in the model a followed jump
is a machine step of its own that leaves the phase where it is, so the next one fetches the target entry (its own
choice, assumption log 2). -/
def Obligations.JumpsFollowOneTarget : Prop :=
  ∀ (s : State) (r : Byte),
    let chained := fun k => decide (r ≠ 0x00#8 ∧ s.left k r = 0xFF#8)
    let target := fun k => if chained k then 0x00#8 else r
    (∃ t, exec (.wJump r) s = .next t ∧ t.ch s.chan = { s.ch s.chan with wavePtr := target .wave } ∧
      OnlyChannelOrRaise (chained .wave) .jumpIntoJumpWave s t ∧
      t.phase = if target .wave = 0x00#8 then .tickNEffects else .waveExec) ∧
    (∃ t, exec (.pJump r) s = .next t ∧ t.ch s.chan = { s.ch s.chan with pulsePtr := target .pulse } ∧
      OnlyChannelOrRaise (chained .pulse) .jumpIntoJumpPulse s t ∧
      t.phase = if target .pulse = 0x00#8 then phaseAfterPulse s else .pulseExec) ∧
    (∃ t, exec (.fJump r) s = .next t ∧ t.filtPtr = target .filter ∧ t.filtTime = s.filtTime ∧
      t.filtType = s.filtType ∧ t.filtCutoff = s.filtCutoff ∧ t.filtCtrl = s.filtCtrl ∧ t.fader = s.fader ∧
      t.funk0 = s.funk0 ∧ t.funk1 = s.funk1 ∧ SameChannels s t ∧
      ControlAfter (chained .filter) .jumpIntoJumpFilter s t ∧ SamePlace s t ∧ SameImageBut [] s t ∧ SameCells s t ∧
      t.phase = if target .filter = 0x00#8 then .sharedOut else .filter)

/-- R238: the three note adjustments as instructions, and the adjustment any right byte stands for: 0x80 keeps, below
it the note index is the sum with the channel's note within 7 bits, above it the low 7 bits. -/
def Obligations.NoteAdjustment : Prop :=
  ∀ (s : State) (r : Byte) (o i : BitVec 7),
    exec .naKeep s = .next (s.goto .tickNEffects) ∧
    (∃ t, exec (.naRel o) s = .next t ∧
      t.ch s.chan =
        { s.ch s.chan with freq := freqAt s.freqRom (BitVec.ofNat 8 ((o.toNat + (s.ch s.chan).note.toNat) % 128)),
                           vibtime := 0x00#8, lastnote := BitVec.ofNat 7 (o.toNat + (s.ch s.chan).note.toNat) } ∧
      OnlyChannel s t ∧ t.phase = .pulseExec) ∧
    (∃ t, exec (.naAbs i) s = .next t ∧
      t.ch s.chan = { s.ch s.chan with freq := freqAt s.freqRom (BitVec.ofNat 8 i.toNat),
                                           vibtime := 0x00#8, lastnote := i } ∧
      OnlyChannel s t ∧ t.phase = .pulseExec) ∧
    (noteAdjust r s).ch s.chan = Channel.adjusted s.freqRom r (s.ch s.chan) ∧ OnlyChannel s (noteAdjust r s) ∧
    (noteAdjust r s).phase = phaseAfterAdjust r

/-- R239 to R244, R248, R254: an embedded slide, tone-portamento or vibrato makes one step now, with the entry's right
byte as speed-table address, and passes the entry; the latched command is not touched. The three commands illegal in
the wave table raise cause 6 and pass the entry; they load no cursor and write no funk slot and no tempo. -/
def Obligations.EmbeddedCommands : Prop :=
  (∀ (s : State) (r : Byte),
    let x := s.ch s.chan
    (∃ t, exec (.wxPup r) s = .next t ∧
      t.ch s.chan = Channel.passed { x with freq := x.freq + slideStep s.chan r s } ∧ OnlyChannel s t ∧
      t.phase = .pulseExec) ∧
    (∃ t, exec (.wxPdn r) s = .next t ∧
      t.ch s.chan = Channel.passed { x with freq := x.freq - slideStep s.chan r s } ∧ OnlyChannel s t ∧
      t.phase = .pulseExec) ∧
    (∃ t, exec (.wxTpo r) s = .next t ∧ t.ch s.chan = Channel.passed ((tonePorta s.chan r s).ch s.chan) ∧
      OnlyChannel s t ∧ t.phase = .pulseExec) ∧
    (∃ t, exec (.wxVib r) s = .next t ∧ t.ch s.chan = Channel.passed ((vibrato s.chan r s).ch s.chan) ∧
      OnlyChannel s t ∧ t.phase = .pulseExec)) ∧
  (∀ (s : State) (r : Byte) (i : Instr), i ∈ [Instr.wxNop r, .wxSwp r, .wxFnk r] →
    ∃ t, exec i s = .next t ∧ t.ch s.chan = Channel.passed (s.ch s.chan) ∧ t.fatal = s.fatal ||| 0x20#7 ∧
      t.action = 3#2 ∧ t.playing = s.playing ∧ t.loopPattern = s.loopPattern ∧ SamePlace s t ∧
      SameOthers s.chan s t ∧ SameShared s t ∧ SameImageBut [] s t ∧ SameCells s t ∧ t.phase = .pulseExec)

/-! ## Slides and vibrato -/

/-- R300, R301: the frequency lookup clamps its 8-bit index to 95, so every index from 96 on reads the last entry,
whatever the contents `F` of the ROM; the default contents are strictly increasing, and index 48 is 0x1168. -/
def Obligations.FreqLookupClamps : Prop :=
  (∀ (rom : Vector Word 96) (i : Byte), rom.toList[min i.toNat 95]? = some (freqAt rom i)) ∧
  (∀ (rom : Vector Word 96) (i : Byte), 95#8 ≤ i → freqAt rom i = freqAt rom 95#8) ∧
  (∀ i : Fin 95, State.reset.freqRom[i.val] < State.reset.freqRom[i.val + 1]) ∧
  freqAt State.reset.freqRom 48#8 = 0x1168#16

/-- R260, R261: the slide step is 0 for address 0, the entry's 16 bits when they are below 0x8000, and else the
relative step with the right byte as count: the difference of the table entries after the last note, shifted right by
the whole count, so 0 from last note 95 on and for every count from 16 on. -/
def Obligations.SlideSteps : Prop :=
  (∀ (c : Chan) (p : Byte) (s : State),
    let v := (s.left .speed p).toNat * 256 + (s.right .speed p).toNat
    slideStep c p s =
      if p = 0x00#8 then 0#16
      else if v < 0x8000 then BitVec.ofNat 16 v
      else relStep s.freqRom (s.ch c).lastnote (s.right .speed p)) ∧
  (∀ (rom : Vector Word 96) (n : BitVec 7) (sh : Byte),
    (relStep rom n sh).toNat =
      ((freqAt rom (BitVec.ofNat 8 (n.toNat + 1))).toNat + 65536 - (freqAt rom (BitVec.ofNat 8 n.toNat)).toNat) % 65536
        / 2 ^ sh.toNat ∧
    (95#7 ≤ n → relStep rom n sh = 0#16) ∧ (16#8 ≤ sh → relStep rom n sh = 0#16))

/-- R263: tone-portamento. Address 0 ties to the target and clears the phase; at the target nothing happens; from
below the step is added modulo 65536 and clamped from above, from above subtracted and clamped from below, and only a
clamp clears the phase. So steps of `d` that cannot wrap past the target bring the frequency to it and leave it there:
after `k` of them it is `k * d` nearer, and no further than the target. -/
def Obligations.TonePortamentoStepsToTheTarget : Prop :=
  (∀ (c : Chan) (p : Byte) (s : State),
    let x := s.ch c
    let target := freqAt s.freqRom x.note
    let up := x.freq + slideStep c p s
    let down := x.freq - slideStep c p s
    tonePorta c p s = s.setCh c
      (if p = 0x00#8 then { x with freq := target, vibtime := 0x00#8 }
       else if x.freq = target then x
       else if x.freq < target then
         (if target < up then { x with freq := target, vibtime := 0x00#8 } else { x with freq := up })
       else
         (if down < target then { x with freq := target, vibtime := 0x00#8 } else { x with freq := down }))) ∧
  (∀ (c : Chan) (p : Byte) (s : State) (k : Nat), p ≠ 0x00#8 →
    let x := s.ch c
    let target := (freqAt s.freqRom x.note).toNat
    let d := (slideStep c p s).toNat
    let t := (tonePorta c p)^[k] s
    (x.freq.toNat ≤ target → target + d ≤ 65536 → (t.ch c).freq.toNat = min (x.freq.toNat + k * d) target) ∧
    (target ≤ x.freq.toNat → d ≤ target + 1 → (t.ch c).freq.toNat = max (x.freq.toNat - k * d) target))

/-- R264: one vibrato step. The compare value and step are 0 for address 0, the entry's bytes for `left` below 0x80,
and else the low seven bits and the relative step; a phase below 0x80 and above the compare value is inverted, then
the phase goes up by 2, and its bit 0 says whether the step is subtracted. -/
def Obligations.VibratoStep : Prop :=
  ∀ (c : Chan) (p : Byte) (s : State),
    let x := s.ch c
    let l := s.left .speed p
    let r := s.right .speed p
    let cmp := if p = 0x00#8 then 0 else l.toNat % 128
    let step : Word := if p = 0x00#8 then 0#16 else if l.toNat < 128 then r.setWidth 16 else relStep s.freqRom x.lastnote r
    let turned := if cmp < x.vibtime.toNat ∧ x.vibtime.toNat < 128 then 255 - x.vibtime.toNat else x.vibtime.toNat
    let v := (turned + 2) % 256
    vibrato c p s = s.setCh c
      { x with vibtime := BitVec.ofNat 8 v, freq := if v % 2 = 1 then x.freq - step else x.freq + step }

/-- R264, and where its last remark ends (assumption log 16): with a compare value up to 125 a vibrato from phase 0
returns to phase 0 and to its frequency after `2 * cmp + 4` steps; with 126 or 127 the phase is never inverted, and
128 steps later it is 0 again and the frequency has risen by 128 steps. -/
def Obligations.VibratoCycle : Prop :=
  ∀ (x : Channel) (cmp : Byte) (step : Word),
    x.vibtime = 0x00#8 → cmp < 0x80#8 →
    if cmp ≤ 125#8 then (vibrateBy (cmp, step))^[2 * cmp.toNat + 4] x = x
    else (vibrateBy (cmp, step))^[128] x = { x with freq := x.freq + 128#16 * step }

/-- R265, R266: the latched command's effects on a tick. Command 0 is the instrument's own vibrato: nothing without an
operand or a delay, a countdown to 1, then a step; 1 and 2 slide, 3 is tone-portamento, 4 vibrato. The channel then
goes to its pulse walker. R266 says that no other value is held; that one of 5 to 15 would have no effect is the model's
inference (assumption log 17). -/
def Obligations.LatchedCommandEffects : Prop :=
  ∀ (s : State), s.phase = .tickNEffects → s.resetWaiting = false →
    let x := s.ch s.chan
    let p := x.cmddata
    ∃ t, step s = .next t ∧ OnlyChannel s t ∧ t.phase = .pulseExec ∧
      t.ch s.chan =
        if x.command = 0#4 then
          (if p = 0x00#8 ∨ x.vibdelay = 0x00#8 then x
           else if x.vibdelay = 1#8 then (vibrato s.chan p s).ch s.chan
           else { x with vibdelay := x.vibdelay - 1#8 })
        else if x.command = 1#4 then { x with freq := x.freq + slideStep s.chan p s }
        else if x.command = 2#4 then { x with freq := x.freq - slideStep s.chan p s }
        else if x.command = 3#4 then (tonePorta s.chan p s).ch s.chan
        else if x.command = 4#4 then (vibrato s.chan p s).ch s.chan
        else x

/-- R112 and the model's reading of it as instructions (assumption log 6): a speed entry under a latched slide moves
the frequency by its step, towards the note for tone-portamento; read for vibrato it makes one vibrato step; read by
set-funk-tempo it becomes the funk table. The step is that of the entry's own two bytes, as R260 and R264 compute it;
where the state's speed table holds the entry at an address, it is the step of that address. -/
def Obligations.SpeedEntryReadings : Prop :=
  ∀ (s : State) (l r : Byte) (p : Byte),
    let x := s.ch s.chan
    let v := l.toNat * 256 + r.toNat
    let step : Word := if v < 0x8000 then BitVec.ofNat 16 v else relStep s.freqRom x.lastnote r
    let target := freqAt s.freqRom x.note
    let vibStep : Word := if l.toNat < 128 then r.setWidth 16 else relStep s.freqRom x.lastnote r
    let turned :=
      if l.toNat % 128 < x.vibtime.toNat ∧ x.vibtime.toNat < 128 then 255 - x.vibtime.toNat else x.vibtime.toNat
    let w := (turned + 2) % 256
    (∃ t, exec (.sSlide l r) s = .next t ∧ OnlyChannel s t ∧ t.phase = s.phase ∧
      (t.ch s.chan =
        if x.command = 1#4 then { x with freq := x.freq + step }
        else if x.command = 2#4 then { x with freq := x.freq - step }
        else if x.command = 3#4 then
          (if x.freq = target then x
           else if x.freq < target then
             (if target < x.freq + step then { x with freq := target, vibtime := 0x00#8 }
              else { x with freq := x.freq + step })
           else
             (if x.freq - step < target then { x with freq := target, vibtime := 0x00#8 }
              else { x with freq := x.freq - step }))
        else x) ∧
      (p ≠ 0x00#8 ∧ l = s.left .speed p ∧ r = s.right .speed p →
        t.ch s.chan =
          if x.command = 1#4 then { x with freq := x.freq + slideStep s.chan p s }
          else if x.command = 2#4 then { x with freq := x.freq - slideStep s.chan p s }
          else if x.command = 3#4 then (tonePorta s.chan p s).ch s.chan
          else x)) ∧
    (∃ t, exec (.sVib l r) s = .next t ∧ OnlyChannel s t ∧ t.phase = s.phase ∧
      t.ch s.chan =
        { x with vibtime := BitVec.ofNat 8 w, freq := if w % 2 = 1 then x.freq - vibStep else x.freq + vibStep } ∧
      (p ≠ 0x00#8 ∧ l = s.left .speed p ∧ r = s.right .speed p →
        t.ch s.chan = (vibrato s.chan p s).ch s.chan)) ∧
    (∃ t, exec (.sFunk l r) s = .next t ∧ t.funk0 = l ∧ t.funk1 = r ∧ t.filtPtr = s.filtPtr ∧
      t.filtTime = s.filtTime ∧ t.filtType = s.filtType ∧ t.filtCutoff = s.filtCutoff ∧ t.filtCtrl = s.filtCtrl ∧
      t.fader = s.fader ∧ OnlyShared s t ∧ t.phase = s.phase)

/-! ## The pulse table -/

/-- R280 to R283: one tick of a pulse entry. With no modulation running a set entry writes the width and advances, a
hold entry does nothing, and a modulation entry loads the counter and makes its first step on the same tick; while a
modulation runs any of them is a modulation step with its right byte. Then the fetch condition is tested. -/
def Obligations.PulseEntries : Prop :=
  ∀ (s : State) (hi : BitVec 4) (n : BitVec 7) (r : Byte), n ≠ 0#7 →
    let x := s.ch s.chan
    (∃ t, exec (.pSet hi r) s = .next t ∧ OnlyChannel s t ∧ t.phase = phaseAfterPulse s ∧
      t.ch s.chan =
        if x.pulsetime = 0x00#8 then
          { x with pulse := BitVec.ofNat 12 (hi.toNat * 256 + r.toNat), pulsePtr := x.pulsePtr + 1#8 }
        else Channel.pulseStepped r x) ∧
    (∃ t, exec (.pHold r) s = .next t ∧ OnlyChannel s t ∧ t.phase = phaseAfterPulse s ∧
      t.ch s.chan = if x.pulsetime = 0x00#8 then x else Channel.pulseStepped r x) ∧
    (∃ t, exec (.pMod n r) s = .next t ∧ OnlyChannel s t ∧ t.phase = phaseAfterPulse s ∧
        t.ch s.chan =
          Channel.pulseStepped r (if x.pulsetime = 0x00#8 then { x with pulsetime := n.setWidth 8 } else x))

/-! ## Modulations and the filter table -/

/-- R282, R294: a modulation entry of `n` ticks occupies exactly `n` ticks. After tick `k` the pulse width has changed
by `k` times the signed right byte modulo 4096, or the cutoff by `k` times the right byte modulo 256, and only after
tick `n` is the counter 0 and the cursor advanced. -/
def Obligations.ModulationsOccupyTheirTicks : Prop :=
  (∀ (s : State) (n : BitVec 7) (r : Byte) (k : Nat),
    (s.ch s.chan).pulsetime = 0x00#8 → 1 ≤ k → k ≤ n.toNat →
    let x := s.ch s.chan
    ∃ t, exec (.pMod n r) ((afterInstr (.pMod n r))^[k - 1] s) = .next t ∧ OnlyChannel s t ∧
      t.ch s.chan =
        { x with
          pulse := BitVec.ofInt 12 (x.pulse.toNat + k * r.toInt)
          pulsetime := BitVec.ofNat 8 (n.toNat - k)
          pulsePtr := if k = n.toNat then x.pulsePtr + 1#8 else x.pulsePtr }) ∧
  (∀ (s : State) (n : BitVec 7) (r : Byte) (k : Nat),
    s.filtTime = 0x00#8 → 1 ≤ k → k ≤ n.toNat →
    ∃ t, exec (.fMod n r) ((afterInstr (.fMod n r))^[k - 1] s) = .next t ∧ OnlyShared s t ∧
      t.filtCutoff = BitVec.ofNat 8 (s.filtCutoff.toNat + k * r.toNat) ∧
      t.filtTime = BitVec.ofNat 8 (n.toNat - k) ∧
      t.filtPtr = (if k = n.toNat then s.filtPtr + 1#8 else s.filtPtr) ∧
      t.filtType = s.filtType ∧ t.filtCtrl = s.filtCtrl ∧ t.fader = s.fader ∧ t.funk0 = s.funk0 ∧ t.funk1 = s.funk1)

/-- R290, R292 to R294: one tick of a filter entry. With no modulation running a cutoff entry writes the cutoff and
advances; a modulation entry loads the counter and makes its first step; a type entry sets type and control, advances,
and executes a cutoff entry that follows it in the same step, unless the cursor has wrapped to 0. While a modulation
runs any of them is a modulation step with its right byte. -/
def Obligations.FilterEntries : Prop :=
  (∀ (s : State) (n : BitVec 7) (r : Byte), n ≠ 0#7 →
    let stepped := fun (time : Byte) (t : State) =>
      t.filtCutoff = s.filtCutoff + r ∧ t.filtTime = time - 1#8 ∧
      t.filtPtr = (if time = 1#8 then s.filtPtr + 1#8 else s.filtPtr)
    let kept := fun t : State =>
      t.filtType = s.filtType ∧ t.filtCtrl = s.filtCtrl ∧ t.fader = s.fader ∧ t.funk0 = s.funk0 ∧
      t.funk1 = s.funk1 ∧ OnlyShared s t ∧ t.phase = .sharedOut
    (∃ t, exec (.fCut r) s = .next t ∧ kept t ∧
      if s.filtTime = 0x00#8 then t.filtCutoff = r ∧ t.filtTime = 0x00#8 ∧ t.filtPtr = s.filtPtr + 1#8
      else stepped s.filtTime t) ∧
    (∃ t, exec (.fMod n r) s = .next t ∧ kept t ∧
      stepped (if s.filtTime = 0x00#8 then n.setWidth 8 else s.filtTime) t)) ∧
  (∀ (s : State) (ty : BitVec 3) (r : Byte),
    let p := s.filtPtr + 1#8
    let absorbs := p ≠ 0x00#8 ∧ s.left .filter p = 0x00#8
    ∃ t, exec (.fType ty r) s = .next t ∧ t.fader = s.fader ∧ t.funk0 = s.funk0 ∧ t.funk1 = s.funk1 ∧
      OnlyShared s t ∧ t.phase = .sharedOut ∧
      if s.filtTime = 0x00#8 then
        t.filtType = BitVec.ofNat 8 (ty.toNat * 16) ∧ t.filtCtrl = r ∧ t.filtTime = 0x00#8 ∧
        t.filtCutoff = (if absorbs then s.right .filter p else s.filtCutoff) ∧
        t.filtPtr = (if absorbs then p + 1#8 else p)
      else
        t.filtType = s.filtType ∧ t.filtCtrl = s.filtCtrl ∧ t.filtCutoff = s.filtCutoff + r ∧
        t.filtTime = s.filtTime - 1#8 ∧ t.filtPtr = (if s.filtTime = 1#8 then p else s.filtPtr))

/-! ## The image -/

/-- R307: after the filter walker the four shared bytes are written: 0, the cutoff, the control byte, and the type with
the fader below it. -/
def Obligations.SharedWriteOut : Prop :=
  ∀ (s : State), s.phase = .sharedOut → s.resetWaiting = false →
    ∃ t, step s = .next t ∧ t.regAt 0x15 = 0x00#8 ∧ t.regAt 0x16 = s.filtCutoff ∧ t.regAt 0x17 = s.filtCtrl ∧
      t.regAt 0x18 = s.filtType ||| (0x0#4 ++ s.fader) ∧ SameImageBut [0x15, 0x16, 0x17, 0x18] s t ∧
      SameChannels s t ∧ SameShared s t ∧ SameControl s t ∧ SameCells s t ∧ t.phase = .enter ∧ t.chan = .c0

/-- R305, R306, R308: the write-out of a channel writes its five image bytes `7c+0` to `7c+4` and no other: not its
envelope bytes, not another channel's bytes, not a shared byte, no register and no cell. -/
def Obligations.ChannelWriteOut : Prop :=
  ∀ (s : State), s.phase = .nextChannel → s.resetWaiting = false →
    let x := s.ch s.chan
    ∃ t, step s = .next t ∧
      (t.regAt (regIdx s.chan 0)).toNat = x.freq.toNat % 256 ∧
      (t.regAt (regIdx s.chan 1)).toNat = x.freq.toNat / 256 ∧
      (t.regAt (regIdx s.chan 2)).toNat = x.pulse.toNat % 256 / 2 * 2 ∧
      (t.regAt (regIdx s.chan 3)).toNat = x.pulse.toNat / 256 ∧
      t.regAt (regIdx s.chan 4) = (if x.mute = true then x.wave &&& 0x08#8 else x.wave &&& x.gate) ∧
      SameImageBut [regIdx s.chan 0, regIdx s.chan 1, regIdx s.chan 2, regIdx s.chan 3, regIdx s.chan 4] s t ∧
      SameChannels s t ∧ SameShared s t ∧ SameControl s t ∧ SameCells s t ∧ t.requests = s.requests ∧
      t.phase = (if s.chan = .c2 then .idle else .enter) ∧
      t.chan = match s.chan with | .c0 => .c1 | .c1 => .c2 | .c2 => .c0

/-- R305, R306, R307: after every tick, muted or not, playing or frozen, the first five image bytes of every channel are
its frequency low and high, its pulse width with bit 0 cleared and its high nibble, and its waveform under the gate
mask, or under the test bit alone when muted; and the four shared bytes are 0 and the cutoff, the control byte and the
type with the fader below it, as they stand right after the filter walker of that tick (the state after the two or three
phases before the shared write-out, assumption log 2), whatever the channels do to those registers later in it. -/
def Obligations.TickWritesTheImage : Prop :=
  ∀ (s : State), s.phase = .idle →
    ∃ t, exec .hTick s = .next t ∧
      (∃ n, n ≤ 3 ∧
        let u := tickAt n s
        u.phase = .sharedOut ∧ t.regAt 0x15 = 0x00#8 ∧ t.regAt 0x16 = u.filtCutoff ∧ t.regAt 0x17 = u.filtCtrl ∧
        t.regAt 0x18 = u.filtType ||| (0x0#4 ++ u.fader)) ∧
      ∀ c, let x := t.ch c
        (t.regAt (regIdx c 0)).toNat = x.freq.toNat % 256 ∧
        (t.regAt (regIdx c 1)).toNat = x.freq.toNat / 256 ∧
        (t.regAt (regIdx c 2)).toNat = x.pulse.toNat % 256 / 2 * 2 ∧
        (t.regAt (regIdx c 3)).toNat = x.pulse.toNat / 256 ∧
        t.regAt (regIdx c 4) = if x.mute = true then x.wave &&& 0x08#8 else x.wave &&& x.gate

/-- R308: the envelope bytes `7c+5` and `7c+6` keep their value but for the rules that write them. A phase of a tick that
is none of those rules leaves the byte alone; so does a whole tick none of whose phases is one; and a host operation but
for a tick and a test note writes no byte of the image. -/
def Obligations.EnvelopeBytesKeepTheirValue : Prop :=
  (∀ (s : State) (c : Chan) (k : Fin 7), s.phase ≠ .idle → s.resetWaiting = false → k = 5 ∨ k = 6 →
    ¬ WritesEnvelope c k s → ∃ t, step s = .next t ∧ t.regAt (regIdx c k) = s.regAt (regIdx c k)) ∧
  (∀ (s : State) (c : Chan) (k : Fin 7), s.phase = .idle → k = 5 ∨ k = 6 →
    (∀ n, ¬ WritesEnvelope c k (tickAt n s)) →
    ∃ t, exec .hTick s = .next t ∧ t.regAt (regIdx c k) = s.regAt (regIdx c k)) ∧
  (∀ (s : State) (i : Instr), s.phase = .idle → i.format = none → i ≠ .hTick →
    (∀ n ins ch, i ≠ .hTestnote n ins ch) → ∃ t, exec i s = .next t ∧ SameImageBut [] s t)

/-! ## Transport actions -/

/-- R141, R142: no action changes nothing. A Start with an empty song clears `FATAL`, raises cause 7 and changes
nothing else; any other Start clears `FATAL` and the filter, resets the fader, puts every channel at its stored start
position (each index replaced by 0 when out of range) with nothing pending, latched or walking, and plays; an illegal
pattern number is fatal as in the sequencer. -/
def Obligations.StartAction : Prop :=
  ∀ (s : State),
    exec .aNone s = .next s ∧
    ∃ t, exec .aStart s = .next t ∧
      if s.songLen = 0x00#8 then t = { s with fatal := 0x40#7, action := 3#2 }
      else
        let row := fun c => if (s.ch c).startOrder < s.songLen then (s.ch c).startOrder else 0x00#8
        let bad := ∃ c, 208#8 ≤ s.orderPatt c (row c)
        t.filtPtr = 0x00#8 ∧ t.filtTime = 0x00#8 ∧ t.filtType = 0x00#8 ∧ t.filtCtrl = 0x00#8 ∧
        t.filtCutoff = 0x00#8 ∧ t.fader = 0xF#4 ∧ t.funk0 = s.funk0 ∧ t.funk1 = s.funk1 ∧ t.playing = true ∧
        t.loopPattern = s.loopPattern ∧ (bad → t.fatal = 0x01#7 ∧ t.action = 3#2) ∧
        (¬ bad → t.fatal = 0#7 ∧ t.action = s.action) ∧ SamePlace s t ∧ SameImageBut [] s t ∧ SameCells s t ∧
        t.phase = s.phase ∧
        ∀ c, let p := if 208#8 ≤ s.orderPatt c (row c) then 0x00#8 else s.orderPatt c (row c)
          t.ch c =
            { s.ch c with
              curOrder := row c, trans := s.orderTrans c (row c), pattnum := p
              songptr :=
                if row c + 1#8 < s.songLen then row c + 1#8
                else if s.songLoop < s.songLen then s.songLoop else 0x00#8
              pattrow := if (s.ch c).startRow < 128#8 ∧ (s.ch c).startRow < s.pattLen p then (s.ch c).startRow
                         else 0x00#8
              command := 0#4, cmddata := 0x00#8, newcommand := 0#4, newcmddata := 0x00#8, nnPend := false
              wavePtr := 0x00#8, wavetime := 0x00#8, pulsePtr := 0x00#8, pulsetime := 0x00#8
              tick := 5#8, gatetimer := (s.instrByte (s.ch c).instr .gatetimer).setWidth 6 }

/-- R143, R144: a Pause and a Stop release every channel and freeze. The Pause keeps each position as the stored start
position; the Stop rewinds each channel to its stored start position without reading an order row. -/
def Obligations.PauseAndStopActions : Prop :=
  ∀ (s : State),
    let released := fun t : State =>
      t.playing = false ∧ t.action = s.action ∧ t.fatal = s.fatal ∧
      t.loopPattern = s.loopPattern ∧ SamePlace s t ∧ SameShared s t ∧ SameCells s t ∧ t.phase = s.phase ∧
      (∀ c, t.regAt (regIdx c 5) = 0x0F#8 ∧ t.regAt (regIdx c 6) = 0x00#8) ∧
      (∀ a, (∀ c, a ≠ regIdx c 5 ∧ a ≠ regIdx c 6) → t.regAt a = s.regAt a)
    (∃ t, exec .aPause s = .next t ∧ released t ∧
      ∀ c, let x := s.ch c
        t.ch c =
          { x with
            gate := 0xFE#8, nnPend := false, command := 0#4, cmddata := 0x00#8, newcommand := 0#4
            newcmddata := 0x00#8
            startOrder := if x.pattrow = 0xFF#8 then x.songptr else x.curOrder
            startRow := if x.pattrow = 0xFF#8 then 0x00#8 else x.pattrow }) ∧
    (∃ t, exec .aStop s = .next t ∧ released t ∧
      ∀ c, let x := s.ch c
        let i := if x.startOrder < s.songLen then x.startOrder else 0x00#8
        t.ch c =
          { x with
            gate := 0xFE#8, nnPend := false, command := 0#4, cmddata := 0x00#8, newcommand := 0#4
            newcmddata := 0x00#8, songptr := i, curOrder := i, pattrow := x.startRow })

/-! ## The tick -/

/-- R140, R150, R320, R366: a tick called between ticks always completes; it is what its phases do one after another,
at most 37 machine steps from the tick's first phase (the phases, and so the number, are the model's, assumption log 2),
with no request of the host served in between, and it ends between ticks at channel 0. -/
def Obligations.TickIsItsPhases : Prop :=
  ∀ (s : State), s.phase = .idle → s.resetWaiting = false →
    ∃ n t, n ≤ 37 ∧ Host.Core.run Sys2Proof.core n (s.goto .actions) = .next t ∧ exec .hTick s = .next t ∧
      (∀ m ≤ n, Host.Core.run Sys2Proof.core m (s.goto .actions) = .next (tickAt m s)) ∧
      (∀ m < n, (tickAt m s).phase ≠ .idle) ∧ (∀ m ≥ n, tickAt m s = t) ∧
      t.phase = .idle ∧ t.chan = .c0 ∧ t.requests = s.requests

/-- R70, R71, R76, R340: a tick writes no song memory, not the frequency ROM, no mute flag and not the pattern loop, and it leaves the start
positions alone unless it honours a Pause. -/
def Obligations.TickLeavesTheHostsStateAlone : Prop :=
  ∀ (s : State), s.phase = .idle →
    ∃ t, exec .hTick s = .next t ∧ t.mem = s.mem ∧ t.freqRom = s.freqRom ∧ t.requests = s.requests ∧
      t.loopPattern = s.loopPattern ∧ (∀ c, (t.ch c).mute = (s.ch c).mute) ∧
      (s.action ≠ 2#2 → ∀ c, (t.ch c).startOrder = (s.ch c).startOrder ∧ (t.ch c).startRow = (s.ch c).startRow)

/-- R87, R141, R334, R340: a tick takes the action it finds and no other. Afterwards the mailbox is empty, or holds the
Stop of a fatal condition whose bit is set; the mode is what the action asks for; and without a Start no bit of
`FATAL` is lost. -/
def Obligations.TickTakesOneAction : Prop :=
  ∀ (s : State), s.phase = .idle →
    ∃ t, exec .hTick s = .next t ∧ (t.action = 0#2 ∨ (t.action = 3#2 ∧ t.fatal ≠ 0#7)) ∧
      t.playing =
        (if s.action = 1#2 ∧ s.songLen ≠ 0x00#8 then true
         else if s.action = 2#2 ∨ s.action = 3#2 then false else s.playing) ∧
      (s.action ≠ 1#2 → t.fatal &&& s.fatal = s.fatal)

/-- R144 (and the source's property it quotes): the tick that honours a Pause or a Stop leaves the block frozen and
writes bit 0 of every channel's waveform byte as 0. -/
def Obligations.StopClearsGateBitsWithinItsTick : Prop :=
  ∀ (s : State), s.phase = .idle → s.action = 2#2 ∨ s.action = 3#2 →
    ∃ t, exec .hTick s = .next t ∧ t.playing = false ∧
      ∀ c, (t.ch c).gate = 0xFE#8 ∧ (t.regAt (regIdx c 4)).getLsbD 0 = false

/-- R155: a frozen tick with no action pending moves no channel's place in the song and fetches no row: the song and
row cursors, the pattern, the transpose, the instrument and the pending command stay. -/
def Obligations.FrozenTickStaysInPlace : Prop :=
  ∀ (s : State), s.phase = .idle → s.playing = false → s.action = 0#2 →
    ∃ t, exec .hTick s = .next t ∧ t.playing = false ∧
      ∀ c, let x := s.ch c
        (t.ch c).songptr = x.songptr ∧ (t.ch c).curOrder = x.curOrder ∧ (t.ch c).pattnum = x.pattnum ∧
        (t.ch c).pattrow = x.pattrow ∧ (t.ch c).trans = x.trans ∧ (t.ch c).instr = x.instr ∧
        (t.ch c).newcommand = x.newcommand ∧ (t.ch c).newcmddata = x.newcmddata ∧ (t.ch c).newnote = x.newnote

/-! ## Host operations -/

/-- R114, R321, R323 to R325: posting an action replaces the mailbox and requesting the pattern loop writes its bit;
release clears the channel's gate, activation writes the inverse of its mute flag, the start position keeps the low
seven bits of the row; a channel argument of 3 is refused at the port. Nothing else changes. -/
def Obligations.HostRegisterWrites : Prop :=
  ∀ (s : State) (a ch : BitVec 2) (b : Bool) (order row : Byte), s.phase = .idle →
    exec (.hAction a) s = .next { s with action := a } ∧ exec (.hSetloop b) s = .next { s with loopPattern := b } ∧
    (∃ t, exec (.hRelease ch) s = .next t ∧
      ∀ c, t.ch c = (if ch.toNat = c.idx then { s.ch c with gate := 0xFE#8 } else s.ch c) ∧
        OnlyChannels s t) ∧
    (∃ t, exec (.hActive ch b) s = .next t ∧
      ∀ c, t.ch c = (if ch.toNat = c.idx then { s.ch c with mute := !b } else s.ch c) ∧ OnlyChannels s t) ∧
    (∃ t, exec (.hSetstart ch order row) s = .next t ∧
      ∀ c, t.ch c =
        (if ch.toNat = c.idx then
          { s.ch c with startOrder := order, startRow := BitVec.ofNat 8 (row.toNat % 128) }
         else s.ch c) ∧ OnlyChannels s t)

/-- R322: a test note. KEY-ON does nothing; REST, KEY-OFF and an unused code release; a note takes the instrument named
(slot 0 keeping the channel's), the lead-in its flags allow, and becomes the pending note untransposed, and in frozen
mode the tick counter and gate-timer are set from the instrument. Channel 3 is refused at the port (R114). -/
def Obligations.TestNote : Prop :=
  ∀ (s : State) (n ins : Byte) (ch : BitVec 2) (c : Chan), s.phase = .idle → ch.toNat = c.idx →
    let x := s.ch c
    let i : BitVec 6 := if ins.setWidth 6 = 0#6 then x.instr else ins.setWidth 6
    let g := s.instrByte i .gatetimer
    let isNote := ¬ (n = 0xC0#8 ∨ n = 0xC1#8 ∨ n = 0xC2#8) ∧ 0x60#8 ≤ n ∧ n ≤ 0xBF#8
    let gateOff := g &&& 0x40#8 = 0x00#8
    let hardRestart := isNote ∧ gateOff ∧ g &&& 0x80#8 = 0x00#8
    exec (.hTestnote n ins 3#2) s = .next s ∧
    ∃ t, exec (.hTestnote n ins ch) s = .next t ∧ OnlyChannelOf c [regIdx c 5, regIdx c 6] s t ∧
      t.regAt (regIdx c 5) = (if hardRestart then 0x0F#8 else s.regAt (regIdx c 5)) ∧
      t.regAt (regIdx c 6) = (if hardRestart then 0x00#8 else s.regAt (regIdx c 6)) ∧
      t.ch c =
        if n = 0xC2#8 then x
        else if isNote then
          { x with
            gate := if gateOff then 0xFE#8 else x.gate
            instr := i, newnote := n, nnPend := true
            tick := if s.playing = true then x.tick else (g &&& 0x3F#8) + 1#8
            gatetimer := if s.playing = true then x.gatetimer else g.setWidth 6 }
        else { x with gate := 0xFE#8 }

/-- R85: no host operation is legal while a tick is in progress; the model refuses it by name. -/
def Obligations.HostOperationsAreRefusedDuringATick : Prop :=
  ∀ (s : State) (i : Instr), s.phase ≠ .idle → i.format = none → exec i s = .refused .duringTick
end

