-- ==== Sys2Proof/Laws/State.lean ====
section
/-! SUPPORT. What each update of the state does to each field: one lemma per field per update. -/

namespace Sys2Proof.Machine

/-! ## The channels -/

@[simp] theorem setCh_ch_self (s : State) (c : Chan) (x : Channel) : (s.setCh c x).ch c = x := by cases c <;> rfl

theorem setCh_ch_ne (s : State) (c d : Chan) (x : Channel) (h : d ≠ c) : (s.setCh c x).ch d = s.ch d := by
  cases c <;> cases d <;> first | rfl | exact absurd rfl h

theorem setCh_ch (s : State) (c d : Chan) (x : Channel) : (s.setCh c x).ch d = if d = c then x else s.ch d := by
  cases c <;> cases d <;> rfl

@[simp] theorem modCh_ch_self (s : State) (c : Chan) (f : Channel → Channel) : (s.modCh c f).ch c = f (s.ch c) := by
  cases c <;> rfl

theorem modCh_ch_ne (s : State) (c d : Chan) (f : Channel → Channel) (h : d ≠ c) : (s.modCh c f).ch d = s.ch d :=
  setCh_ch_ne s c d _ h

theorem modCh_ch (s : State) (c d : Chan) (f : Channel → Channel) :
    (s.modCh c f).ch d = if d = c then f (s.ch d) else s.ch d := by
  cases c <;> cases d <;> rfl

@[simp] theorem modCur_ch_self (s : State) (f : Channel → Channel) : (s.modCur f).ch s.chan = f (s.ch s.chan) :=
  modCh_ch_self s s.chan f

theorem modCur_ch_ne (s : State) (d : Chan) (f : Channel → Channel) (h : d ≠ s.chan) : (s.modCur f).ch d = s.ch d :=
  modCh_ch_ne s s.chan d f h

@[simp] theorem modCur_cur (s : State) (f : Channel → Channel) : (s.modCur f).cur = f s.cur := by
  unfold State.modCur State.cur State.modCh State.setCh State.ch
  cases s.chan <;> rfl

@[simp] theorem goto_ch (s : State) (p : Phase) (c : Chan) : (s.goto p).ch c = s.ch c := by cases c <;> rfl

@[simp] theorem goto_cur (s : State) (p : Phase) : (s.goto p).cur = s.cur := goto_ch s p s.chan

@[simp] theorem setReg_ch (s : State) (a : Fin 25) (v : Byte) (c : Chan) : (s.setReg a v).ch c = s.ch c := by
  cases c <;> rfl

@[simp] theorem setReg_cur (s : State) (a : Fin 25) (v : Byte) : (s.setReg a v).cur = s.cur := setReg_ch s a v s.chan

/-! ## The image -/

@[simp] theorem setReg_regAt_self (s : State) (a : Fin 25) (v : Byte) : (s.setReg a v).regAt a = v := by
  simp [State.setReg, State.regAt]

theorem setReg_regAt_ne (s : State) (a b : Fin 25) (v : Byte) (h : b ≠ a) : (s.setReg a v).regAt b = s.regAt b := by
  have : a.val ≠ b.val := fun e => h (Fin.ext e.symm)
  simp [State.setReg, State.regAt, this]

@[simp] theorem setCh_regAt (s : State) (c : Chan) (x : Channel) (a : Fin 25) : (s.setCh c x).regAt a = s.regAt a := by
  cases c <;> rfl

@[simp] theorem modCh_regAt (s : State) (c : Chan) (f : Channel → Channel) (a : Fin 25) :
    (s.modCh c f).regAt a = s.regAt a := setCh_regAt s c _ a

@[simp] theorem modCur_regAt (s : State) (f : Channel → Channel) (a : Fin 25) : (s.modCur f).regAt a = s.regAt a :=
  modCh_regAt s s.chan f a

@[simp] theorem goto_regAt (s : State) (p : Phase) (a : Fin 25) : (s.goto p).regAt a = s.regAt a := rfl

/-! ## Other fields after `setCh` -/

@[simp] theorem setCh_filtPtr (s : State) (c : Chan) (x : Channel) : (s.setCh c x).filtPtr = s.filtPtr := by cases c <;> rfl

@[simp] theorem setCh_filtTime (s : State) (c : Chan) (x : Channel) : (s.setCh c x).filtTime = s.filtTime := by cases c <;> rfl

@[simp] theorem setCh_filtType (s : State) (c : Chan) (x : Channel) : (s.setCh c x).filtType = s.filtType := by cases c <;> rfl

@[simp] theorem setCh_filtCutoff (s : State) (c : Chan) (x : Channel) : (s.setCh c x).filtCutoff = s.filtCutoff := by cases c <;> rfl

@[simp] theorem setCh_filtCtrl (s : State) (c : Chan) (x : Channel) : (s.setCh c x).filtCtrl = s.filtCtrl := by cases c <;> rfl

@[simp] theorem setCh_fader (s : State) (c : Chan) (x : Channel) : (s.setCh c x).fader = s.fader := by cases c <;> rfl

@[simp] theorem setCh_funk0 (s : State) (c : Chan) (x : Channel) : (s.setCh c x).funk0 = s.funk0 := by cases c <;> rfl

@[simp] theorem setCh_funk1 (s : State) (c : Chan) (x : Channel) : (s.setCh c x).funk1 = s.funk1 := by cases c <;> rfl

@[simp] theorem setCh_playing (s : State) (c : Chan) (x : Channel) : (s.setCh c x).playing = s.playing := by cases c <;> rfl

@[simp] theorem setCh_action (s : State) (c : Chan) (x : Channel) : (s.setCh c x).action = s.action := by cases c <;> rfl

@[simp] theorem setCh_fatal (s : State) (c : Chan) (x : Channel) : (s.setCh c x).fatal = s.fatal := by cases c <;> rfl

@[simp] theorem setCh_loopPattern (s : State) (c : Chan) (x : Channel) : (s.setCh c x).loopPattern = s.loopPattern := by cases c <;> rfl

@[simp] theorem setCh_reg (s : State) (c : Chan) (x : Channel) : (s.setCh c x).reg = s.reg := by cases c <;> rfl

@[simp] theorem setCh_mem (s : State) (c : Chan) (x : Channel) : (s.setCh c x).mem = s.mem := by cases c <;> rfl

@[simp] theorem setCh_freqRom (s : State) (c : Chan) (x : Channel) : (s.setCh c x).freqRom = s.freqRom := by cases c <;> rfl

@[simp] theorem setCh_phase (s : State) (c : Chan) (x : Channel) : (s.setCh c x).phase = s.phase := by cases c <;> rfl

@[simp] theorem setCh_chan (s : State) (c : Chan) (x : Channel) : (s.setCh c x).chan = s.chan := by cases c <;> rfl

@[simp] theorem setCh_requests (s : State) (c : Chan) (x : Channel) : (s.setCh c x).requests = s.requests := by cases c <;> rfl

/-! ## Other fields after `modCh` -/

@[simp] theorem modCh_filtPtr (s : State) (c : Chan) (f : Channel → Channel) : (s.modCh c f).filtPtr = s.filtPtr := setCh_filtPtr s c _

@[simp] theorem modCh_filtTime (s : State) (c : Chan) (f : Channel → Channel) : (s.modCh c f).filtTime = s.filtTime := setCh_filtTime s c _

@[simp] theorem modCh_filtType (s : State) (c : Chan) (f : Channel → Channel) : (s.modCh c f).filtType = s.filtType := setCh_filtType s c _

@[simp] theorem modCh_filtCutoff (s : State) (c : Chan) (f : Channel → Channel) : (s.modCh c f).filtCutoff = s.filtCutoff := setCh_filtCutoff s c _

@[simp] theorem modCh_filtCtrl (s : State) (c : Chan) (f : Channel → Channel) : (s.modCh c f).filtCtrl = s.filtCtrl := setCh_filtCtrl s c _

@[simp] theorem modCh_fader (s : State) (c : Chan) (f : Channel → Channel) : (s.modCh c f).fader = s.fader := setCh_fader s c _

@[simp] theorem modCh_funk0 (s : State) (c : Chan) (f : Channel → Channel) : (s.modCh c f).funk0 = s.funk0 := setCh_funk0 s c _

@[simp] theorem modCh_funk1 (s : State) (c : Chan) (f : Channel → Channel) : (s.modCh c f).funk1 = s.funk1 := setCh_funk1 s c _

@[simp] theorem modCh_playing (s : State) (c : Chan) (f : Channel → Channel) : (s.modCh c f).playing = s.playing := setCh_playing s c _

@[simp] theorem modCh_action (s : State) (c : Chan) (f : Channel → Channel) : (s.modCh c f).action = s.action := setCh_action s c _

@[simp] theorem modCh_fatal (s : State) (c : Chan) (f : Channel → Channel) : (s.modCh c f).fatal = s.fatal := setCh_fatal s c _

@[simp] theorem modCh_loopPattern (s : State) (c : Chan) (f : Channel → Channel) : (s.modCh c f).loopPattern = s.loopPattern := setCh_loopPattern s c _

@[simp] theorem modCh_reg (s : State) (c : Chan) (f : Channel → Channel) : (s.modCh c f).reg = s.reg := setCh_reg s c _

@[simp] theorem modCh_mem (s : State) (c : Chan) (f : Channel → Channel) : (s.modCh c f).mem = s.mem := setCh_mem s c _

@[simp] theorem modCh_freqRom (s : State) (c : Chan) (f : Channel → Channel) : (s.modCh c f).freqRom = s.freqRom := setCh_freqRom s c _

@[simp] theorem modCh_phase (s : State) (c : Chan) (f : Channel → Channel) : (s.modCh c f).phase = s.phase := setCh_phase s c _

@[simp] theorem modCh_chan (s : State) (c : Chan) (f : Channel → Channel) : (s.modCh c f).chan = s.chan := setCh_chan s c _

@[simp] theorem modCh_requests (s : State) (c : Chan) (f : Channel → Channel) : (s.modCh c f).requests = s.requests := setCh_requests s c _

/-! ## Other fields after `modCur` -/

@[simp] theorem modCur_filtPtr (s : State) (f : Channel → Channel) : (s.modCur f).filtPtr = s.filtPtr := modCh_filtPtr s s.chan f

@[simp] theorem modCur_filtTime (s : State) (f : Channel → Channel) : (s.modCur f).filtTime = s.filtTime := modCh_filtTime s s.chan f

@[simp] theorem modCur_filtType (s : State) (f : Channel → Channel) : (s.modCur f).filtType = s.filtType := modCh_filtType s s.chan f

@[simp] theorem modCur_filtCutoff (s : State) (f : Channel → Channel) : (s.modCur f).filtCutoff = s.filtCutoff := modCh_filtCutoff s s.chan f

@[simp] theorem modCur_filtCtrl (s : State) (f : Channel → Channel) : (s.modCur f).filtCtrl = s.filtCtrl := modCh_filtCtrl s s.chan f

@[simp] theorem modCur_fader (s : State) (f : Channel → Channel) : (s.modCur f).fader = s.fader := modCh_fader s s.chan f

@[simp] theorem modCur_funk0 (s : State) (f : Channel → Channel) : (s.modCur f).funk0 = s.funk0 := modCh_funk0 s s.chan f

@[simp] theorem modCur_funk1 (s : State) (f : Channel → Channel) : (s.modCur f).funk1 = s.funk1 := modCh_funk1 s s.chan f

@[simp] theorem modCur_playing (s : State) (f : Channel → Channel) : (s.modCur f).playing = s.playing := modCh_playing s s.chan f

@[simp] theorem modCur_action (s : State) (f : Channel → Channel) : (s.modCur f).action = s.action := modCh_action s s.chan f

@[simp] theorem modCur_fatal (s : State) (f : Channel → Channel) : (s.modCur f).fatal = s.fatal := modCh_fatal s s.chan f

@[simp] theorem modCur_loopPattern (s : State) (f : Channel → Channel) : (s.modCur f).loopPattern = s.loopPattern := modCh_loopPattern s s.chan f

@[simp] theorem modCur_reg (s : State) (f : Channel → Channel) : (s.modCur f).reg = s.reg := modCh_reg s s.chan f

@[simp] theorem modCur_mem (s : State) (f : Channel → Channel) : (s.modCur f).mem = s.mem := modCh_mem s s.chan f

@[simp] theorem modCur_freqRom (s : State) (f : Channel → Channel) : (s.modCur f).freqRom = s.freqRom := modCh_freqRom s s.chan f

@[simp] theorem modCur_phase (s : State) (f : Channel → Channel) : (s.modCur f).phase = s.phase := modCh_phase s s.chan f

@[simp] theorem modCur_chan (s : State) (f : Channel → Channel) : (s.modCur f).chan = s.chan := modCh_chan s s.chan f

@[simp] theorem modCur_requests (s : State) (f : Channel → Channel) : (s.modCur f).requests = s.requests := modCh_requests s s.chan f

/-! ## Other fields after `setReg` -/

@[simp] theorem setReg_filtPtr (s : State) (a : Fin 25) (v : Byte) : (s.setReg a v).filtPtr = s.filtPtr := rfl

@[simp] theorem setReg_filtTime (s : State) (a : Fin 25) (v : Byte) : (s.setReg a v).filtTime = s.filtTime := rfl

@[simp] theorem setReg_filtType (s : State) (a : Fin 25) (v : Byte) : (s.setReg a v).filtType = s.filtType := rfl

@[simp] theorem setReg_filtCutoff (s : State) (a : Fin 25) (v : Byte) : (s.setReg a v).filtCutoff = s.filtCutoff := rfl

@[simp] theorem setReg_filtCtrl (s : State) (a : Fin 25) (v : Byte) : (s.setReg a v).filtCtrl = s.filtCtrl := rfl

@[simp] theorem setReg_fader (s : State) (a : Fin 25) (v : Byte) : (s.setReg a v).fader = s.fader := rfl

@[simp] theorem setReg_funk0 (s : State) (a : Fin 25) (v : Byte) : (s.setReg a v).funk0 = s.funk0 := rfl

@[simp] theorem setReg_funk1 (s : State) (a : Fin 25) (v : Byte) : (s.setReg a v).funk1 = s.funk1 := rfl

@[simp] theorem setReg_playing (s : State) (a : Fin 25) (v : Byte) : (s.setReg a v).playing = s.playing := rfl

@[simp] theorem setReg_action (s : State) (a : Fin 25) (v : Byte) : (s.setReg a v).action = s.action := rfl

@[simp] theorem setReg_fatal (s : State) (a : Fin 25) (v : Byte) : (s.setReg a v).fatal = s.fatal := rfl

@[simp] theorem setReg_loopPattern (s : State) (a : Fin 25) (v : Byte) : (s.setReg a v).loopPattern = s.loopPattern := rfl

@[simp] theorem setReg_mem (s : State) (a : Fin 25) (v : Byte) : (s.setReg a v).mem = s.mem := rfl

@[simp] theorem setReg_freqRom (s : State) (a : Fin 25) (v : Byte) : (s.setReg a v).freqRom = s.freqRom := rfl

@[simp] theorem setReg_phase (s : State) (a : Fin 25) (v : Byte) : (s.setReg a v).phase = s.phase := rfl

@[simp] theorem setReg_chan (s : State) (a : Fin 25) (v : Byte) : (s.setReg a v).chan = s.chan := rfl

@[simp] theorem setReg_requests (s : State) (a : Fin 25) (v : Byte) : (s.setReg a v).requests = s.requests := rfl

/-! ## Other fields after `goto` -/

@[simp] theorem goto_filtPtr (s : State) (p : Phase) : (s.goto p).filtPtr = s.filtPtr := rfl

@[simp] theorem goto_filtTime (s : State) (p : Phase) : (s.goto p).filtTime = s.filtTime := rfl

@[simp] theorem goto_filtType (s : State) (p : Phase) : (s.goto p).filtType = s.filtType := rfl

@[simp] theorem goto_filtCutoff (s : State) (p : Phase) : (s.goto p).filtCutoff = s.filtCutoff := rfl

@[simp] theorem goto_filtCtrl (s : State) (p : Phase) : (s.goto p).filtCtrl = s.filtCtrl := rfl

@[simp] theorem goto_fader (s : State) (p : Phase) : (s.goto p).fader = s.fader := rfl

@[simp] theorem goto_funk0 (s : State) (p : Phase) : (s.goto p).funk0 = s.funk0 := rfl

@[simp] theorem goto_funk1 (s : State) (p : Phase) : (s.goto p).funk1 = s.funk1 := rfl

@[simp] theorem goto_playing (s : State) (p : Phase) : (s.goto p).playing = s.playing := rfl

@[simp] theorem goto_action (s : State) (p : Phase) : (s.goto p).action = s.action := rfl

@[simp] theorem goto_fatal (s : State) (p : Phase) : (s.goto p).fatal = s.fatal := rfl

@[simp] theorem goto_loopPattern (s : State) (p : Phase) : (s.goto p).loopPattern = s.loopPattern := rfl

@[simp] theorem goto_reg (s : State) (p : Phase) : (s.goto p).reg = s.reg := rfl

@[simp] theorem goto_mem (s : State) (p : Phase) : (s.goto p).mem = s.mem := rfl

@[simp] theorem goto_freqRom (s : State) (p : Phase) : (s.goto p).freqRom = s.freqRom := rfl

@[simp] theorem goto_phase (s : State) (p : Phase) : (s.goto p).phase = p := rfl

@[simp] theorem goto_chan (s : State) (p : Phase) : (s.goto p).chan = s.chan := rfl

@[simp] theorem goto_requests (s : State) (p : Phase) : (s.goto p).requests = s.requests := rfl

end Sys2Proof.Machine
end

