-- ==== Sys2Proof/Laws/Memory.lean ====
section
/-! SUPPORT. Every operation on the song memories keeps their canonical form. -/

namespace Sys2Proof.Machine

theorem wfFrom_mono {lo lo' : Nat} {m : Memory} (hle : lo' ≤ lo) (h : Memory.wfFrom lo m = true) :
    Memory.wfFrom lo' m = true := by
  cases m with
  | nil => rfl
  | cons p m =>
    obtain ⟨a, v⟩ := p
    simp only [Memory.wfFrom, Bool.and_eq_true, decide_eq_true_eq, bne_iff_ne] at h ⊢
    exact ⟨⟨⟨le_trans hle h.1.1.1, h.1.1.2⟩, h.1.2⟩, h.2⟩

theorem write_keeps_wfFrom {lo a : Nat} (v : Byte) {m : Memory} (hlo : lo ≤ a) (hmap : Memory.mapped a = true)
    (h : Memory.wfFrom lo m = true) : Memory.wfFrom lo (Memory.write m a v) = true := by
  induction m generalizing lo with
  | nil =>
    unfold Memory.write
    split
    · rfl
    · next hv => simp [Memory.wfFrom, hlo, hmap, hv]
  | cons p m ih =>
    obtain ⟨b, x⟩ := p
    simp only [Memory.wfFrom, Bool.and_eq_true, decide_eq_true_eq, bne_iff_ne] at h
    obtain ⟨⟨⟨hb, hx⟩, hmb⟩, hm⟩ := h
    unfold Memory.write
    split
    · next hab =>
      split
      · simp [Memory.wfFrom, hb, hx, hmb, hm]
      · next hv =>
        simp only [Memory.wfFrom, Bool.and_eq_true, decide_eq_true_eq, bne_iff_ne]
        exact ⟨⟨⟨hlo, hv⟩, hmap⟩, ⟨⟨hab, hx⟩, hmb⟩, hm⟩
    · split
      · next hab =>
        subst hab
        split
        · exact wfFrom_mono (by omega) hm
        · next hv => simp [Memory.wfFrom, hlo, hv, hmap, hm]
      · next h1 h2 =>
        simp only [Memory.wfFrom, Bool.and_eq_true, decide_eq_true_eq, bne_iff_ne]
        exact ⟨⟨⟨hb, hx⟩, hmb⟩, ih (by omega) hm⟩

/-- A write to a cell that exists keeps the canonical form. -/
theorem write_keeps_wf {a : Nat} (v : Byte) {m : Memory} (hmap : Memory.mapped a = true) (h : Memory.wf m = true) :
    Memory.wf (Memory.write m a v) = true := write_keeps_wfFrom v (Nat.zero_le a) hmap h

theorem reset_mem_wf : Memory.wf State.reset.mem = true := rfl

/-- What a host store can do (R71): the cell is written, or the address names no cell. -/
theorem storeCell_cases (a : Nat) (v : Byte) (s : State) :
    (Memory.mapped a = true ∧ storeCell a v s = .next { s with mem := Memory.write s.mem a v }) ∨
    (Memory.mapped a = false ∧ storeCell a v s = .fault (.noSuchCell a)) := by
  unfold storeCell
  cases h : Memory.mapped a <;> simp

/-- A host store that goes on keeps the canonical form. -/
theorem storeCell_keeps_wf {a : Nat} {v : Byte} {s t : State} (h : Memory.wf s.mem = true)
    (ht : storeCell a v s = .next t) : Memory.wf t.mem = true := by
  rcases storeCell_cases a v s with ⟨hm, he⟩ | ⟨_, he⟩
  · rw [he] at ht
    cases ht
    exact write_keeps_wf v hm h
  · rw [he] at ht
    cases ht

theorem resetBlock_keeps_wf {s : State} (rest : List Request) (h : Memory.wf s.mem = true) :
    Memory.wf (resetBlock rest s).mem = true := h

end Sys2Proof.Machine
end

