-- ==== Sys2Proof/Laws/Ops.lean ====
section
/-! SUPPORT. For each shared operation, one lemma that says everything it does. -/

namespace Sys2Proof.Machine

theorem regIdx_inj (c : Chan) (j k : Fin 7) : regIdx c j = regIdx c k ↔ j = k := by
  simp only [regIdx, Fin.ext_iff]; omega

/-! ## Raising a cause (R331) -/

theorem raiseFatalIf_cases (b : Bool) (k : Cause) (s : State) :
    (b = true ∧ raiseFatalIf b k s = raiseFatal k s) ∨ (b = false ∧ raiseFatalIf b k s = s) := by
  cases b
  · exact .inr ⟨rfl, rfl⟩
  · exact .inl ⟨rfl, rfl⟩

/-- Raising a cause writes `FATAL` and `ACTION` and nothing else. -/
theorem raiseFatalIf_spec (b : Bool) (k : Cause) (s : State) :
    ControlAfter b k s (raiseFatalIf b k s) ∧ SameChannels s (raiseFatalIf b k s) ∧
    SameShared s (raiseFatalIf b k s) ∧ (raiseFatalIf b k s).reg = s.reg ∧ (raiseFatalIf b k s).mem = s.mem ∧
    SamePlace s (raiseFatalIf b k s) ∧ (raiseFatalIf b k s).phase = s.phase := by
  cases b <;> exact ⟨⟨rfl, rfl, rfl, rfl⟩, fun d => by cases d <;> rfl, ⟨rfl, rfl, rfl, rfl, rfl, rfl, rfl, rfl⟩,
    rfl, rfl, ⟨rfl, rfl⟩, rfl⟩

@[simp] theorem raiseFatalIf_ch (b : Bool) (k : Cause) (s : State) (d : Chan) :
    (raiseFatalIf b k s).ch d = s.ch d := (raiseFatalIf_spec b k s).2.1 d

@[simp] theorem raiseFatalIf_mem (b : Bool) (k : Cause) (s : State) : (raiseFatalIf b k s).mem = s.mem :=
  (raiseFatalIf_spec b k s).2.2.2.2.1

@[simp] theorem raiseFatalIf_reg (b : Bool) (k : Cause) (s : State) : (raiseFatalIf b k s).reg = s.reg :=
  (raiseFatalIf_spec b k s).2.2.2.1

@[simp] theorem raiseFatalIf_chan (b : Bool) (k : Cause) (s : State) : (raiseFatalIf b k s).chan = s.chan :=
  (raiseFatalIf_spec b k s).2.2.2.2.2.1.1

/-! ## The frequency ROM is constant (R361) -/

@[simp] theorem raiseFatalIf_freqRom (b : Bool) (k : Cause) (s : State) :
    (raiseFatalIf b k s).freqRom = s.freqRom := by cases b <;> rfl

@[simp] theorem setEnvelope_freqRom (c : Chan) (ad sr : Byte) (s : State) :
    (setEnvelope c ad sr s).freqRom = s.freqRom := rfl

@[simp] theorem release_freqRom (c : Chan) (s : State) : (release c s).freqRom = s.freqRom := by cases c <;> rfl

@[simp] theorem sequencer_freqRom (c : Chan) (s : State) : (sequencer c s).freqRom = s.freqRom := by
  simp [sequencer]

@[simp] theorem loadWavePtr_freqRom (c : Chan) (p : Byte) (s : State) :
    (loadWavePtr c p s).freqRom = s.freqRom := by simp [loadWavePtr]

@[simp] theorem loadPulsePtr_freqRom (c : Chan) (p : Byte) (s : State) :
    (loadPulsePtr c p s).freqRom = s.freqRom := by simp [loadPulsePtr]

@[simp] theorem loadFilterPtr_freqRom (p : Byte) (s : State) : (loadFilterPtr p s).freqRom = s.freqRom := by
  simp [loadFilterPtr]

@[simp] theorem setMasterVolume_freqRom (d : Byte) (s : State) : (setMasterVolume d s).freqRom = s.freqRom := by
  unfold setMasterVolume; split <;> rfl

@[simp] theorem setAllTempos_freqRom (v : Byte) (s : State) : (setAllTempos v s).freqRom = s.freqRom := rfl

/-- The lookup of a saturated index reads the last entry (R300). -/
theorem freqAt_of_ge (rom : Vector Word 96) (i : Byte) (h : 95 ≤ i.toNat) : freqAt rom i = rom[95] := by
  simp [freqAt, Nat.min_eq_right h]

/-! ## The envelope bytes and the release (R77, R143) -/

/-- Writing a channel's envelope bytes writes image bytes `7c+5` and `7c+6` and nothing else. -/
theorem setEnvelope_spec (c : Chan) (ad sr : Byte) (s : State) :
    (setEnvelope c ad sr s).regAt (regIdx c 5) = ad ∧ (setEnvelope c ad sr s).regAt (regIdx c 6) = sr ∧
    SameImageBut [regIdx c 5, regIdx c 6] s (setEnvelope c ad sr s) ∧
    ∃ r, setEnvelope c ad sr s = { s with reg := r } := by
  refine ⟨?_, setReg_regAt_self _ _ _, fun a ha => ?_, _, rfl⟩
  · have h : regIdx c 5 ≠ regIdx c 6 := by simp [regIdx_inj]
    exact (setReg_regAt_ne _ _ _ _ h).trans (setReg_regAt_self _ _ _)
  · simp only [List.mem_cons, List.not_mem_nil, or_false, not_or] at ha
    exact (setReg_regAt_ne _ _ _ _ ha.2).trans (setReg_regAt_ne _ _ _ _ ha.1)

@[simp] theorem setEnvelope_ch (c : Chan) (ad sr : Byte) (s : State) (d : Chan) :
    (setEnvelope c ad sr s).ch d = s.ch d := by cases d <;> rfl

@[simp] theorem setEnvelope_mem (c : Chan) (ad sr : Byte) (s : State) : (setEnvelope c ad sr s).mem = s.mem := rfl

/-- What a release writes (R143). -/
theorem release_spec (c : Chan) (s : State) :
    (release c s).ch c =
      { s.ch c with gate := 0xFE#8, nnPend := false, command := 0#4, cmddata := 0x00#8, newcommand := 0#4,
                    newcmddata := 0x00#8 } ∧
    SameOthers c s (release c s) ∧ SameShared s (release c s) ∧ SameControl s (release c s) ∧
    (release c s).regAt (regIdx c 5) = Config.hrAd ∧ (release c s).regAt (regIdx c 6) = Config.hrSr ∧
    SameImageBut [regIdx c 5, regIdx c 6] s (release c s) ∧ (release c s).mem = s.mem ∧ SamePlace s (release c s) := by
  obtain ⟨h5, h6, hi, -⟩ := setEnvelope_spec c Config.hrAd Config.hrSr (s.modCh c fun x =>
    { x with gate := 0xFE#8, nnPend := false, command := 0#4, cmddata := 0x00#8, newcommand := 0#4,
             newcmddata := 0x00#8 })
  refine ⟨by cases c <;> rfl, fun d hd => ?_, ?_, ?_, h5, h6, fun a ha => (hi a ha).trans (modCh_regAt ..), ?_, ?_⟩
  · exact (setEnvelope_ch ..).trans (modCh_ch_ne _ _ _ _ hd)
  · cases c <;> exact ⟨rfl, rfl, rfl, rfl, rfl, rfl, rfl, rfl⟩
  · cases c <;> exact ⟨rfl, rfl, rfl, rfl⟩
  · cases c <;> rfl
  · cases c <;> exact ⟨rfl, rfl⟩

/-! ## The sequencer (R170) -/

/-- What a sequencer run writes. -/
theorem sequencer_spec (c : Chan) (s : State) :
    (sequencer c s).ch c =
      { s.ch c with
        curOrder := orderIndex c s
        trans := s.orderTrans c (orderIndex c s)
        songptr := if s.songLen ≤ orderIndex c s + 1#8 then orderWrap s else orderIndex c s + 1#8
        pattnum := if orderIllegal c s then 0x00#8 else s.orderPatt c (orderIndex c s)
        pattrow := 0x00#8 } ∧
    SameOthers c s (sequencer c s) ∧ SameShared s (sequencer c s) ∧
    ControlAfter (orderIllegal c s) .illegalPattern s (sequencer c s) ∧ (sequencer c s).reg = s.reg ∧
    (sequencer c s).mem = s.mem ∧ SamePlace s (sequencer c s) ∧ (sequencer c s).phase = s.phase := by
  unfold sequencer
  refine ⟨?_, fun d hd => ?_, ?_, ?_, ?_, ?_, ?_, ?_⟩
  · simp
  · simp [modCh_ch_ne _ _ _ _ hd]
  all_goals
    rcases raiseFatalIf_cases (orderIllegal c s) .illegalPattern (s.modCh c fun x =>
      { x with
        curOrder := orderIndex c s
        trans := s.orderTrans c (orderIndex c s)
        songptr := if s.songLen ≤ orderIndex c s + 1#8 then orderWrap s else orderIndex c s + 1#8
        pattnum := if orderIllegal c s then 0x00#8 else s.orderPatt c (orderIndex c s)
        pattrow := 0x00#8 }) with ⟨hb, he⟩ | ⟨hb, he⟩
  all_goals
    simp only [hb] at he ⊢
    rw [he]
    simp [SameShared, ControlAfter, SamePlace, raiseFatal]

/-! ## Cursor loads (R177, R208 to R210) -/

/-- What loading a wave cursor writes. -/
theorem loadWavePtr_spec (c : Chan) (p : Byte) (s : State) :
    (loadWavePtr c p s).ch c = { s.ch c with wavePtr := p, wavetime := 0x00#8 } ∧
    SameOthers c s (loadWavePtr c p s) ∧ SameShared s (loadWavePtr c p s) ∧
    ControlAfter (p != 0x00#8 && s.isJumpAt .wave p) .jumpIntoJumpWave s (loadWavePtr c p s) ∧
    (loadWavePtr c p s).reg = s.reg ∧ (loadWavePtr c p s).mem = s.mem ∧ SamePlace s (loadWavePtr c p s) ∧
    (loadWavePtr c p s).phase = s.phase := by
  unfold loadWavePtr
  obtain ⟨h1, -, h3, -, -, h6, h7⟩ := raiseFatalIf_spec (p != 0x00#8 && s.isJumpAt .wave p) .jumpIntoJumpWave
    (s.modCh c fun x => { x with wavePtr := p, wavetime := 0x00#8 })
  refine ⟨by simp, fun d hd => by simp [modCh_ch_ne _ _ _ _ hd], ?_, ?_, by simp, by simp, ?_, ?_⟩
  · simpa [SameShared] using h3
  · simpa [ControlAfter] using h1
  · simpa [SamePlace] using h6
  · simpa using h7

/-- What loading a pulse cursor writes. -/
theorem loadPulsePtr_spec (c : Chan) (p : Byte) (s : State) :
    (loadPulsePtr c p s).ch c = { s.ch c with pulsePtr := p, pulsetime := 0x00#8 } ∧
    SameOthers c s (loadPulsePtr c p s) ∧ SameShared s (loadPulsePtr c p s) ∧
    ControlAfter (p != 0x00#8 && s.isJumpAt .pulse p) .jumpIntoJumpPulse s (loadPulsePtr c p s) ∧
    (loadPulsePtr c p s).reg = s.reg ∧ (loadPulsePtr c p s).mem = s.mem ∧ SamePlace s (loadPulsePtr c p s) ∧
    (loadPulsePtr c p s).phase = s.phase := by
  unfold loadPulsePtr
  obtain ⟨h1, -, h3, -, -, h6, h7⟩ := raiseFatalIf_spec (p != 0x00#8 && s.isJumpAt .pulse p) .jumpIntoJumpPulse
    (s.modCh c fun x => { x with pulsePtr := p, pulsetime := 0x00#8 })
  refine ⟨by simp, fun d hd => by simp [modCh_ch_ne _ _ _ _ hd], ?_, ?_, by simp, by simp, ?_, ?_⟩
  · simpa [SameShared] using h3
  · simpa [ControlAfter] using h1
  · simpa [SamePlace] using h6
  · simpa using h7

/-- What loading the filter cursor writes. -/
theorem loadFilterPtr_spec (p : Byte) (s : State) :
    (loadFilterPtr p s).filtPtr = p ∧ (loadFilterPtr p s).filtTime = 0x00#8 ∧
    SameChannels s (loadFilterPtr p s) ∧
    ControlAfter (p != 0x00#8 && s.isJumpAt .filter p) .jumpIntoJumpFilter s (loadFilterPtr p s) ∧
    (loadFilterPtr p s).filtType = s.filtType ∧ (loadFilterPtr p s).filtCutoff = s.filtCutoff ∧
    (loadFilterPtr p s).filtCtrl = s.filtCtrl ∧ (loadFilterPtr p s).fader = s.fader ∧
    (loadFilterPtr p s).funk0 = s.funk0 ∧ (loadFilterPtr p s).funk1 = s.funk1 ∧
    (loadFilterPtr p s).reg = s.reg ∧ (loadFilterPtr p s).mem = s.mem ∧ SamePlace s (loadFilterPtr p s) ∧
    (loadFilterPtr p s).phase = s.phase := by
  unfold loadFilterPtr
  cases p != 0x00#8 && s.isJumpAt .filter p <;>
    exact ⟨rfl, rfl, fun d => by cases d <;> rfl, ⟨rfl, rfl, rfl, rfl⟩, rfl, rfl, rfl, rfl, rfl, rfl, rfl, rfl,
      ⟨rfl, rfl⟩, rfl⟩

/-! ## Shared registers -/

/-- What setting all tempos writes (R214, R215). -/
theorem setAllTempos_ch (v : Byte) (s : State) (c : Chan) :
    (setAllTempos v s).ch c = { s.ch c with tempo := v } := by cases c <;> rfl

/-- Setting all tempos writes no shared or control register, no image byte and no cell. -/
theorem setAllTempos_frame (v : Byte) (s : State) :
    SameShared s (setAllTempos v s) ∧ SameControl s (setAllTempos v s) ∧ (setAllTempos v s).reg = s.reg ∧
    (setAllTempos v s).mem = s.mem ∧ SamePlace s (setAllTempos v s) ∧ (setAllTempos v s).phase = s.phase :=
  ⟨⟨rfl, rfl, rfl, rfl, rfl, rfl, rfl, rfl⟩, ⟨rfl, rfl, rfl, rfl⟩, rfl, rfl, ⟨rfl, rfl⟩, rfl⟩

/-- What setting the master volume writes (R213). -/
theorem setMasterVolume_cases (d : Byte) (s : State) :
    (d < 0x10#8 ∧ setMasterVolume d s = { s with fader := d.setWidth 4 }) ∨
    (¬ d < 0x10#8 ∧ setMasterVolume d s = s) := by
  unfold setMasterVolume
  by_cases h : d < 0x10#8 <;> simp [h]

/-! ## The wave walker -/

/-- Passing an entry (R236). -/
theorem waveAdvance_ch (s : State) :
    (waveAdvance s).ch s.chan = { s.ch s.chan with wavetime := 0x00#8, wavePtr := (s.ch s.chan).wavePtr + 1#8 } :=
  modCur_ch_self _ _

/-- A note adjustment keeps, adds to the note, or sets the note (R238). -/
theorem noteAdjust_cases (r : Byte) (s : State) :
    (r = 0x80#8 ∧ noteAdjust r s = s.goto .tickNEffects) ∨
    (r < 0x80#8 ∧ noteAdjust r s = applyNote (relativeNote (r.setWidth 7) s.cur.note) s) ∨
    (0x80#8 < r ∧ noteAdjust r s = applyNote (r.setWidth 7) s) := by
  unfold noteAdjust decodeNoteAdj
  by_cases h0 : r = 0x80#8
  · left; subst h0; exact ⟨rfl, rfl⟩
  · by_cases h1 : r < 0x80#8
    · right; left; simp [h0, h1, runNoteAdj, execNaRel, settled]
    · right; right
      refine ⟨?_, by simp [h0, h1, runNoteAdj, execNaAbs, settled]⟩
      simp only [BitVec.lt_def, BitVec.toNat_ofNat] at h1 ⊢
      have : r.toNat ≠ 128 := fun e => h0 (BitVec.eq_of_toNat_eq (by simpa using e))
      omega

/-- What applying a note writes (R238). -/
theorem applyNote_ch (n : BitVec 7) (s : State) :
    (applyNote n s).ch s.chan =
      { s.ch s.chan with freq := freqAt s.freqRom (n.setWidth 8), vibtime := 0x00#8, lastnote := n } := by
  simp [applyNote]

/-! ## The pulse walker -/

/-- A pulse modulation step (R282): nothing when the counter is 0, else add, count down, and advance at 0. -/
theorem pulseModulate_cases (r : Byte) (x : Channel) :
    (x.pulsetime = 0x00#8 ∧ pulseModulate r x = x) ∨
    (x.pulsetime ≠ 0x00#8 ∧ x.pulsetime - 1#8 = 0x00#8 ∧
      pulseModulate r x = { x with pulse := x.pulse + pulseDelta r, pulsetime := 0x00#8,
                                   pulsePtr := x.pulsePtr + 1#8 }) ∨
    (x.pulsetime ≠ 0x00#8 ∧ x.pulsetime - 1#8 ≠ 0x00#8 ∧
      pulseModulate r x = { x with pulse := x.pulse + pulseDelta r, pulsetime := x.pulsetime - 1#8 }) := by
  unfold pulseModulate
  by_cases h : x.pulsetime = 0x00#8
  · left; simp [h]
  · by_cases h1 : x.pulsetime - 1#8 = 0x00#8
    · right; left; simp [h, h1]
    · right; right; simp [h, h1]

/-- Where a channel goes after its pulse walker (R156). -/
theorem afterPulse_cases (s : State) :
    (fetchDue s s.chan = true ∧ afterPulse s = s.goto .getNewNotes) ∨
    (fetchDue s s.chan = false ∧ afterPulse s = s.goto .nextChannel) := by
  unfold afterPulse
  cases h : fetchDue s s.chan <;> simp

/-! ## The filter walker -/

/-- A filter modulation step (R294). -/
theorem filterModulate_cases (r : Byte) (s : State) :
    (s.filtTime = 0x00#8 ∧ filterModulate r s = s) ∨
    (s.filtTime ≠ 0x00#8 ∧ s.filtTime - 1#8 = 0x00#8 ∧
      filterModulate r s = { s with filtCutoff := s.filtCutoff + r, filtTime := 0x00#8,
                                    filtPtr := s.filtPtr + 1#8 }) ∨
    (s.filtTime ≠ 0x00#8 ∧ s.filtTime - 1#8 ≠ 0x00#8 ∧
      filterModulate r s = { s with filtCutoff := s.filtCutoff + r, filtTime := s.filtTime - 1#8 }) := by
  unfold filterModulate
  by_cases h : s.filtTime = 0x00#8
  · left; simp [h]
  · by_cases h1 : s.filtTime - 1#8 = 0x00#8
    · right; left; simp [h, h1]
    · right; right; simp [h, h1]

/-! ## The tick -/

@[simp] theorem settled_next (s t : State) : settled s (.next t) = t := rfl

@[simp] theorem onNext_next (f : State → State) (s : State) : onNext f (.next s) = .next (f s) := rfl

/-- Every instruction of the song and every action completes, in a tick as on its own. -/
theorem exec_eq_perform (i : Instr) (f : Format) (hf : i.format = some f) (s : State) :
    exec i s = .next (perform i s) := by
  cases i <;> first | rfl | exact absurd hf (by simp [Instr.format])

/-- What the decoder answers stands in the format it was asked for. -/
theorem decode_format {f : Format} {bs : List Byte} {i : Instr} (h : decode f bs = .ok i) : i.format = some f := by
  unfold decode at h
  split at h <;> cases h
  · unfold decodeNote; split_ifs <;> rfl
  · unfold decodeFirstwave; split_ifs <;> rfl
  · unfold decodeNoteAdj; split_ifs <;> rfl
  · unfold decodeAction; split <;> rfl
  · unfold decodeCmd; split <;> rfl
  · unfold decodeWave decodeEmbedded; split_ifs <;> first | rfl | (split <;> rfl)
  · unfold decodePulse; split_ifs <;> rfl
  · unfold decodeFilter; split_ifs <;> rfl
  all_goals rfl

/-- A word the machine fetches is decoded: every fetch reads a whole word (R115). -/
theorem fetched_word_decodes {s : State} {f : Format} {bs : List Byte} (h : fetch s = .word f bs) :
    ∃ i, decode f bs = .ok i := by
  have key : ∀ k g p, fetchEntry k g p s = .word f bs → g ∈ [Format.filter, .wave, .pulse, .slide, .vibrato] →
      ∃ i, decode f bs = .ok i := by
    intro k g p h1 hg
    unfold fetchEntry at h1
    split at h1
    · cases h1
    · cases h1
      simp only [List.mem_cons, List.not_mem_nil, or_false] at hg
      rcases hg with rfl | rfl | rfl | rfl | rfl <;> exact ⟨_, rfl⟩
  unfold fetch at h
  split at h
  · unfold fetchHost at h; split at h <;> cases h
  · cases h; exact ⟨_, rfl⟩
  · exact key _ _ _ h (by simp)
  · cases h; exact ⟨_, rfl⟩
  · cases h; exact ⟨_, rfl⟩
  · exact key _ _ _ h (by simp)
  · unfold fetchEffect at h
    split_ifs at h
    all_goals exact key _ _ _ h (by simp)
  · exact key _ _ _ h (by simp)
  · unfold fetchRow at h
    split at h
    · cases h
    · cases h; exact ⟨_, rfl⟩
  all_goals cases h

@[simp] theorem microStep_idle {s : State} (h : s.phase = .idle) : microStep s = s := by simp [microStep, h]

/-- Running phases is iterating the phase, since between ticks nothing moves. -/
theorem runPhases_eq_iterate (n : Nat) (s : State) : runPhases n s = microStep^[n] s := by
  induction n generalizing s with
  | zero => rfl
  | succ n ih =>
    rw [runPhases, Function.iterate_succ_apply]
    split
    · next h => rw [microStep_idle h, Function.iterate_fixed (microStep_idle h)]
    · exact ih _

/-- A whole tick is its 37 phases (R140, R366). -/
theorem runTick_eq_tickAt (s : State) : runTick s = tickAt 37 s := runPhases_eq_iterate _ _

@[simp] theorem tickAt_zero (s : State) : tickAt 0 s = s.goto .actions := rfl

theorem tickAt_succ (n : Nat) (s : State) : tickAt (n + 1) s = microStep (tickAt n s) :=
  Function.iterate_succ_apply' _ _ _

/-- Once a tick is over it stays as it is. -/
theorem tickAt_of_idle {n : Nat} {s : State} (h : (tickAt n s).phase = .idle) :
    ∀ m, n ≤ m → tickAt m s = tickAt n s := by
  intro m hm
  induction m, hm using Nat.le_induction with
  | base => rfl
  | succ m _ ih => rw [tickAt_succ, ih, microStep_idle h]

/-- What one step can do, if it goes on: take a reset; inside a tick, run one phase; between ticks, run the host
operation at the head of the requests (or the next tick), or store a cell. -/
theorem step_cases {s t : State} (h : step s = .next t) :
    (∃ rest, s.requests = .reset :: rest ∧ t = resetBlock rest s) ∨
    (s.phase ≠ .idle ∧ t = microStep s) ∨
    (s.phase = .idle ∧ s.requests = [] ∧ exec .hTick s = .next t) ∨
    (∃ c rest, s.phase = .idle ∧ s.requests = .call c :: rest ∧
      exec (decodeHost c) { s with requests := rest } = .next t) ∨
    (∃ a v rest, s.phase = .idle ∧ s.requests = .store a v :: rest ∧ Memory.mapped a = true ∧
      t = { s with requests := rest, mem := Memory.write s.mem a v }) := by
  by_cases hr : ∃ rest, s.requests = .reset :: rest
  · obtain ⟨rest, hr⟩ := hr
    left
    refine ⟨rest, hr, ?_⟩
    simp only [step, hr] at h
    cases h; rfl
  · right
    have hstep : step s = match fetch s with
        | .nothing => serveOrAdvance s
        | .host c => exec (decodeHost c) (beforeExec s)
        | .word f bytes =>
          match decode f bytes with
          | .ok i => onNext (afterExec s.phase) (exec i (beforeExec s))
          | .error _ => .refused .undecoded := by
      unfold step
      split
      · next rest h1 => exact absurd ⟨rest, h1⟩ hr
      · rfl
    rw [hstep] at h
    by_cases hp : s.phase = .idle
    · right
      have hf : fetch s = fetchHost s := by unfold fetch; rw [hp]
      rw [hf] at h
      cases hq : s.requests with
      | nil =>
        left
        have hb : beforeExec s = s := by
          unfold beforeExec; rw [hp, hq]
          cases s; simp_all
        simp only [fetchHost, hq, decodeHost, hb] at h
        exact ⟨hp, rfl, h⟩
      | cons q rest =>
        right
        cases q with
        | reset => exact absurd ⟨rest, hq⟩ hr
        | call c =>
          left
          have hb : beforeExec s = { s with requests := rest } := by unfold beforeExec; rw [hp, hq]; rfl
          simp only [fetchHost, hq, hb] at h
          exact ⟨c, rest, hp, rfl, h⟩
        | store a v =>
          right
          have hs : serveOrAdvance s = storeCell a v { s with requests := rest } := by
            unfold serveOrAdvance; rw [hp, hq]
          simp only [fetchHost, hq, hs] at h
          unfold storeCell at h
          split at h
          · next hm => cases h; exact ⟨a, v, rest, hp, rfl, hm, rfl⟩
          · cases h
    · left
      refine ⟨hp, ?_⟩
      unfold microStep
      rw [if_neg hp]
      cases hf : fetch s with
      | nothing =>
        have h' : serveOrAdvance s = .next t := by simpa only [hf] using h
        unfold serveOrAdvance at h'
        split at h'
        · next hp' _ => exact absurd hp' hp
        · cases h'; rfl
      | host c =>
        exfalso
        revert hf
        unfold fetch fetchEntry fetchEffect fetchEntry fetchRow
        split
        · next hp' => exact absurd hp' hp
        all_goals (try split_ifs) <;> simp
      | word f bytes =>
        obtain ⟨i, hi⟩ := fetched_word_decodes hf
        rw [hf] at h
        simp only [hi] at h ⊢
        rw [exec_eq_perform i f (decode_format hi)] at h
        cases h; rfl

end Sys2Proof.Machine
end

