-- ==== Sys2Proof/Laws/PerInstr.lean ====
section
/-! SUPPORT. Statements made of every instruction, one lemma per constructor. -/

namespace Sys2Proof.Laws

/-- The encoder writes exactly as many bytes as an instruction of the format has (R100, R103); a host operation has no
word (R118). -/
def EncodedSize.Statement (i : Instr) : Prop :=
  (∀ f, i.format = some f → (encode i).length = f.size) ∧ (i.format = none → encode i = [])

theorem EncodedSize.nRest : EncodedSize.Statement .nRest :=
  ⟨fun _ h => by cases h; rfl, fun h => by cases h⟩

theorem EncodedSize.nKoff : EncodedSize.Statement .nKoff :=
  ⟨fun _ h => by cases h; rfl, fun h => by cases h⟩

theorem EncodedSize.nKon : EncodedSize.Statement .nKon :=
  ⟨fun _ h => by cases h; rfl, fun h => by cases h⟩

theorem EncodedSize.nNote : ∀ (n : Byte), EncodedSize.Statement (.nNote n) :=
  fun _ => ⟨fun _ h => by cases h; rfl, fun h => by cases h⟩

theorem EncodedSize.nNone : ∀ (n : Byte), EncodedSize.Statement (.nNone n) :=
  fun _ => ⟨fun _ h => by cases h; rfl, fun h => by cases h⟩

theorem EncodedSize.nop : ∀ (d : Byte), EncodedSize.Statement (.nop d) :=
  fun _ => ⟨fun _ h => by cases h; rfl, fun h => by cases h⟩

theorem EncodedSize.pup : ∀ (d : Byte), EncodedSize.Statement (.pup d) :=
  fun _ => ⟨fun _ h => by cases h; rfl, fun h => by cases h⟩

theorem EncodedSize.pdn : ∀ (d : Byte), EncodedSize.Statement (.pdn d) :=
  fun _ => ⟨fun _ h => by cases h; rfl, fun h => by cases h⟩

theorem EncodedSize.tpo : ∀ (d : Byte), EncodedSize.Statement (.tpo d) :=
  fun _ => ⟨fun _ h => by cases h; rfl, fun h => by cases h⟩

theorem EncodedSize.vib : ∀ (d : Byte), EncodedSize.Statement (.vib d) :=
  fun _ => ⟨fun _ h => by cases h; rfl, fun h => by cases h⟩

theorem EncodedSize.sad : ∀ (d : Byte), EncodedSize.Statement (.sad d) :=
  fun _ => ⟨fun _ h => by cases h; rfl, fun h => by cases h⟩

theorem EncodedSize.ssr : ∀ (d : Byte), EncodedSize.Statement (.ssr d) :=
  fun _ => ⟨fun _ h => by cases h; rfl, fun h => by cases h⟩

theorem EncodedSize.swv : ∀ (d : Byte), EncodedSize.Statement (.swv d) :=
  fun _ => ⟨fun _ h => by cases h; rfl, fun h => by cases h⟩

theorem EncodedSize.swp : ∀ (d : Byte), EncodedSize.Statement (.swp d) :=
  fun _ => ⟨fun _ h => by cases h; rfl, fun h => by cases h⟩

theorem EncodedSize.spp : ∀ (d : Byte), EncodedSize.Statement (.spp d) :=
  fun _ => ⟨fun _ h => by cases h; rfl, fun h => by cases h⟩

theorem EncodedSize.sfp : ∀ (d : Byte), EncodedSize.Statement (.sfp d) :=
  fun _ => ⟨fun _ h => by cases h; rfl, fun h => by cases h⟩

theorem EncodedSize.sfc : ∀ (d : Byte), EncodedSize.Statement (.sfc d) :=
  fun _ => ⟨fun _ h => by cases h; rfl, fun h => by cases h⟩

theorem EncodedSize.sco : ∀ (d : Byte), EncodedSize.Statement (.sco d) :=
  fun _ => ⟨fun _ h => by cases h; rfl, fun h => by cases h⟩

theorem EncodedSize.smv : ∀ (d : Byte), EncodedSize.Statement (.smv d) :=
  fun _ => ⟨fun _ h => by cases h; rfl, fun h => by cases h⟩

theorem EncodedSize.fnk : ∀ (d : Byte), EncodedSize.Statement (.fnk d) :=
  fun _ => ⟨fun _ h => by cases h; rfl, fun h => by cases h⟩

theorem EncodedSize.tmp : ∀ (d : Byte), EncodedSize.Statement (.tmp d) :=
  fun _ => ⟨fun _ h => by cases h; rfl, fun h => by cases h⟩

theorem EncodedSize.fwKeep : EncodedSize.Statement .fwKeep :=
  ⟨fun _ h => by cases h; rfl, fun h => by cases h⟩

theorem EncodedSize.fwWave : ∀ (w : Byte), EncodedSize.Statement (.fwWave w) :=
  fun _ => ⟨fun _ h => by cases h; rfl, fun h => by cases h⟩

theorem EncodedSize.fwGoff : EncodedSize.Statement .fwGoff :=
  ⟨fun _ h => by cases h; rfl, fun h => by cases h⟩

theorem EncodedSize.fwGon : EncodedSize.Statement .fwGon :=
  ⟨fun _ h => by cases h; rfl, fun h => by cases h⟩

theorem EncodedSize.wKeep : ∀ (r : Byte), EncodedSize.Statement (.wKeep r) :=
  fun _ => ⟨fun _ h => by cases h; rfl, fun h => by cases h⟩

theorem EncodedSize.wDelay : ∀ (n : BitVec 4) (r : Byte), EncodedSize.Statement (.wDelay n r) :=
  fun _ _ => ⟨fun _ h => by cases h; rfl, fun h => by cases h⟩

theorem EncodedSize.wWave : ∀ (l r : Byte), EncodedSize.Statement (.wWave l r) :=
  fun _ _ => ⟨fun _ h => by cases h; rfl, fun h => by cases h⟩

theorem EncodedSize.wMute : ∀ (ctl : BitVec 4) (r : Byte), EncodedSize.Statement (.wMute ctl r) :=
  fun _ _ => ⟨fun _ h => by cases h; rfl, fun h => by cases h⟩

theorem EncodedSize.wxNop : ∀ (r : Byte), EncodedSize.Statement (.wxNop r) :=
  fun _ => ⟨fun _ h => by cases h; rfl, fun h => by cases h⟩

theorem EncodedSize.wxPup : ∀ (r : Byte), EncodedSize.Statement (.wxPup r) :=
  fun _ => ⟨fun _ h => by cases h; rfl, fun h => by cases h⟩

theorem EncodedSize.wxPdn : ∀ (r : Byte), EncodedSize.Statement (.wxPdn r) :=
  fun _ => ⟨fun _ h => by cases h; rfl, fun h => by cases h⟩

theorem EncodedSize.wxTpo : ∀ (r : Byte), EncodedSize.Statement (.wxTpo r) :=
  fun _ => ⟨fun _ h => by cases h; rfl, fun h => by cases h⟩

theorem EncodedSize.wxVib : ∀ (r : Byte), EncodedSize.Statement (.wxVib r) :=
  fun _ => ⟨fun _ h => by cases h; rfl, fun h => by cases h⟩

theorem EncodedSize.wxSad : ∀ (r : Byte), EncodedSize.Statement (.wxSad r) :=
  fun _ => ⟨fun _ h => by cases h; rfl, fun h => by cases h⟩

theorem EncodedSize.wxSsr : ∀ (r : Byte), EncodedSize.Statement (.wxSsr r) :=
  fun _ => ⟨fun _ h => by cases h; rfl, fun h => by cases h⟩

theorem EncodedSize.wxSwv : ∀ (r : Byte), EncodedSize.Statement (.wxSwv r) :=
  fun _ => ⟨fun _ h => by cases h; rfl, fun h => by cases h⟩

theorem EncodedSize.wxSwp : ∀ (r : Byte), EncodedSize.Statement (.wxSwp r) :=
  fun _ => ⟨fun _ h => by cases h; rfl, fun h => by cases h⟩

theorem EncodedSize.wxSpp : ∀ (r : Byte), EncodedSize.Statement (.wxSpp r) :=
  fun _ => ⟨fun _ h => by cases h; rfl, fun h => by cases h⟩

theorem EncodedSize.wxSfp : ∀ (r : Byte), EncodedSize.Statement (.wxSfp r) :=
  fun _ => ⟨fun _ h => by cases h; rfl, fun h => by cases h⟩

theorem EncodedSize.wxSfc : ∀ (r : Byte), EncodedSize.Statement (.wxSfc r) :=
  fun _ => ⟨fun _ h => by cases h; rfl, fun h => by cases h⟩

theorem EncodedSize.wxSco : ∀ (r : Byte), EncodedSize.Statement (.wxSco r) :=
  fun _ => ⟨fun _ h => by cases h; rfl, fun h => by cases h⟩

theorem EncodedSize.wxSmv : ∀ (r : Byte), EncodedSize.Statement (.wxSmv r) :=
  fun _ => ⟨fun _ h => by cases h; rfl, fun h => by cases h⟩

theorem EncodedSize.wxFnk : ∀ (r : Byte), EncodedSize.Statement (.wxFnk r) :=
  fun _ => ⟨fun _ h => by cases h; rfl, fun h => by cases h⟩

theorem EncodedSize.wJump : ∀ (r : Byte), EncodedSize.Statement (.wJump r) :=
  fun _ => ⟨fun _ h => by cases h; rfl, fun h => by cases h⟩

theorem EncodedSize.pHold : ∀ (r : Byte), EncodedSize.Statement (.pHold r) :=
  fun _ => ⟨fun _ h => by cases h; rfl, fun h => by cases h⟩

theorem EncodedSize.pMod : ∀ (n : BitVec 7) (r : Byte), EncodedSize.Statement (.pMod n r) :=
  fun _ _ => ⟨fun _ h => by cases h; rfl, fun h => by cases h⟩

theorem EncodedSize.pSet : ∀ (hi : BitVec 4) (lo : Byte), EncodedSize.Statement (.pSet hi lo) :=
  fun _ _ => ⟨fun _ h => by cases h; rfl, fun h => by cases h⟩

theorem EncodedSize.pJump : ∀ (r : Byte), EncodedSize.Statement (.pJump r) :=
  fun _ => ⟨fun _ h => by cases h; rfl, fun h => by cases h⟩

theorem EncodedSize.fCut : ∀ (r : Byte), EncodedSize.Statement (.fCut r) :=
  fun _ => ⟨fun _ h => by cases h; rfl, fun h => by cases h⟩

theorem EncodedSize.fMod : ∀ (n : BitVec 7) (r : Byte), EncodedSize.Statement (.fMod n r) :=
  fun _ _ => ⟨fun _ h => by cases h; rfl, fun h => by cases h⟩

theorem EncodedSize.fType : ∀ (ty : BitVec 3) (ctl : Byte), EncodedSize.Statement (.fType ty ctl) :=
  fun _ _ => ⟨fun _ h => by cases h; rfl, fun h => by cases h⟩

theorem EncodedSize.fJump : ∀ (r : Byte), EncodedSize.Statement (.fJump r) :=
  fun _ => ⟨fun _ h => by cases h; rfl, fun h => by cases h⟩

theorem EncodedSize.sSlide : ∀ (l r : Byte), EncodedSize.Statement (.sSlide l r) :=
  fun _ _ => ⟨fun _ h => by cases h; rfl, fun h => by cases h⟩

theorem EncodedSize.sVib : ∀ (l r : Byte), EncodedSize.Statement (.sVib l r) :=
  fun _ _ => ⟨fun _ h => by cases h; rfl, fun h => by cases h⟩

theorem EncodedSize.sFunk : ∀ (l r : Byte), EncodedSize.Statement (.sFunk l r) :=
  fun _ _ => ⟨fun _ h => by cases h; rfl, fun h => by cases h⟩

theorem EncodedSize.naKeep : EncodedSize.Statement .naKeep :=
  ⟨fun _ h => by cases h; rfl, fun h => by cases h⟩

theorem EncodedSize.naRel : ∀ (o : BitVec 7), EncodedSize.Statement (.naRel o) :=
  fun _ => ⟨fun _ h => by cases h; rfl, fun h => by cases h⟩

theorem EncodedSize.naAbs : ∀ (i : BitVec 7), EncodedSize.Statement (.naAbs i) :=
  fun _ => ⟨fun _ h => by cases h; rfl, fun h => by cases h⟩

theorem EncodedSize.aNone : EncodedSize.Statement .aNone :=
  ⟨fun _ h => by cases h; rfl, fun h => by cases h⟩

theorem EncodedSize.aStart : EncodedSize.Statement .aStart :=
  ⟨fun _ h => by cases h; rfl, fun h => by cases h⟩

theorem EncodedSize.aPause : EncodedSize.Statement .aPause :=
  ⟨fun _ h => by cases h; rfl, fun h => by cases h⟩

theorem EncodedSize.aStop : EncodedSize.Statement .aStop :=
  ⟨fun _ h => by cases h; rfl, fun h => by cases h⟩

theorem EncodedSize.hTick : EncodedSize.Statement .hTick :=
  ⟨fun _ h => (by cases h), fun _ => rfl⟩

theorem EncodedSize.hAction : ∀ (a : BitVec 2), EncodedSize.Statement (.hAction a) :=
  fun _ => ⟨fun _ h => (by cases h), fun _ => rfl⟩

theorem EncodedSize.hTestnote : ∀ (n ins : Byte) (ch : BitVec 2), EncodedSize.Statement (.hTestnote n ins ch) :=
  fun _ _ _ => ⟨fun _ h => (by cases h), fun _ => rfl⟩

theorem EncodedSize.hRelease : ∀ (ch : BitVec 2), EncodedSize.Statement (.hRelease ch) :=
  fun _ => ⟨fun _ h => (by cases h), fun _ => rfl⟩

theorem EncodedSize.hActive : ∀ (ch : BitVec 2) (b : Bool), EncodedSize.Statement (.hActive ch b) :=
  fun _ _ => ⟨fun _ h => (by cases h), fun _ => rfl⟩

theorem EncodedSize.hSetstart : ∀ (ch : BitVec 2) (order row : Byte), EncodedSize.Statement (.hSetstart ch order row) :=
  fun _ _ _ => ⟨fun _ h => (by cases h), fun _ => rfl⟩

theorem EncodedSize.hSetloop : ∀ (b : Bool), EncodedSize.Statement (.hSetloop b) :=
  fun _ => ⟨fun _ h => (by cases h), fun _ => rfl⟩

end Sys2Proof.Laws
end

