-- ==== Sys2Proof/Tests/Slice0.lean ====
section
/-! SUPPORT. The model's own tests. Expected values come from the spec: the examples of its rules and the vectors of
95_test_vectors.md, named at each test. -/

open Sys2Proof Sys2Proof.Machine

namespace Sys2Proof.Tests

/-! ## Well-formedness: an ill-formed term for each check -/

theorem test_wf_refuses_note_out_of_range : (Instr.nNote 0x5F#8).wf = false := by decide
theorem test_wf_refuses_note_above_range : (Instr.nNote 0xC3#8).wf = false := by decide
theorem test_wf_refuses_none_in_range : (Instr.nNone 0x60#8).wf = false := by decide
theorem test_wf_refuses_none_on_sentinel : (Instr.nNone 0xC1#8).wf = false := by decide
theorem test_wf_refuses_first_wave_keep : (Instr.fwWave 0x00#8).wf = false := by decide
theorem test_wf_refuses_first_wave_sentinel : (Instr.fwWave 0xFE#8).wf = false := by decide
theorem test_wf_refuses_delay_zero : (Instr.wDelay 0#4 0x80#8).wf = false := by decide
theorem test_wf_refuses_wave_below_range : (Instr.wWave 0x0F#8 0x80#8).wf = false := by decide
theorem test_wf_refuses_wave_above_range : (Instr.wWave 0xE0#8 0x80#8).wf = false := by decide
theorem test_wf_refuses_pulse_modulation_zero : (Instr.pMod 0#7 0x20#8).wf = false := by decide
theorem test_wf_refuses_filter_modulation_zero : (Instr.fMod 0#7 0x20#8).wf = false := by decide
theorem test_wf_refuses_absolute_note_zero : (Instr.naAbs 0#7).wf = false := by decide
theorem test_wf_takes_range_ends :
    (Instr.nNote 0x60#8).wf = true ∧ (Instr.nNote 0xBF#8).wf = true ∧ (Instr.wWave 0xDF#8 0#8).wf = true := by decide

/-! ## Decoding: words written out from 30_encoding.md -/

/-- R102. -/
theorem test_decode_note :
    decode .note [0xC0#8] = .ok .nRest ∧ decode .note [0xC1#8] = .ok .nKoff ∧ decode .note [0xC2#8] = .ok .nKon ∧
    decode .note [0x60#8] = .ok (.nNote 0x60#8) ∧ decode .note [0xBF#8] = .ok (.nNote 0xBF#8) ∧
    decode .note [0x5F#8] = .ok (.nNone 0x5F#8) ∧ decode .note [0xC3#8] = .ok (.nNone 0xC3#8) :=
  ⟨rfl, rfl, rfl, rfl, rfl, rfl, rfl⟩

/-- R103, R104; bits 7:4 of the code byte are ignored. -/
theorem test_decode_cmd_low :
    decode .cmd [0x00#8, 0x12#8] = .ok (.nop 0x12#8) ∧ decode .cmd [0x01#8, 0x12#8] = .ok (.pup 0x12#8) ∧
    decode .cmd [0x02#8, 0x12#8] = .ok (.pdn 0x12#8) ∧ decode .cmd [0xF3#8, 0x12#8] = .ok (.tpo 0x12#8) ∧
    decode .cmd [0x04#8, 0x12#8] = .ok (.vib 0x12#8) ∧ decode .cmd [0x05#8, 0x12#8] = .ok (.sad 0x12#8) ∧
    decode .cmd [0x06#8, 0x12#8] = .ok (.ssr 0x12#8) ∧ decode .cmd [0x97#8, 0x12#8] = .ok (.swv 0x12#8) :=
  ⟨rfl, rfl, rfl, rfl, rfl, rfl, rfl, rfl⟩

/-- R104. -/
theorem test_decode_cmd_high :
    decode .cmd [0x08#8, 0x12#8] = .ok (.swp 0x12#8) ∧ decode .cmd [0x09#8, 0x12#8] = .ok (.spp 0x12#8) ∧
    decode .cmd [0x0A#8, 0x12#8] = .ok (.sfp 0x12#8) ∧ decode .cmd [0x0B#8, 0x12#8] = .ok (.sfc 0x12#8) ∧
    decode .cmd [0x0C#8, 0x12#8] = .ok (.sco 0x12#8) ∧ decode .cmd [0x0D#8, 0x12#8] = .ok (.smv 0x12#8) ∧
    decode .cmd [0x0E#8, 0x12#8] = .ok (.fnk 0x12#8) ∧ decode .cmd [0x0F#8, 0x12#8] = .ok (.tmp 0x12#8) :=
  ⟨rfl, rfl, rfl, rfl, rfl, rfl, rfl, rfl⟩

/-- R107. -/
theorem test_decode_firstwave :
    decode .firstwave [0x00#8] = .ok .fwKeep ∧ decode .firstwave [0x01#8] = .ok (.fwWave 0x01#8) ∧
    decode .firstwave [0xFD#8] = .ok (.fwWave 0xFD#8) ∧ decode .firstwave [0xFE#8] = .ok .fwGoff ∧
    decode .firstwave [0xFF#8] = .ok .fwGon := ⟨rfl, rfl, rfl, rfl, rfl⟩

/-- R109, at both ends of each range. -/
theorem test_decode_wave :
    decode .wave [0x00#8, 0x0C#8] = .ok (.wKeep 0x0C#8) ∧ decode .wave [0x01#8, 0x80#8] = .ok (.wDelay 1#4 0x80#8) ∧
    decode .wave [0x0F#8, 0x80#8] = .ok (.wDelay 15#4 0x80#8) ∧
    decode .wave [0x10#8, 0x00#8] = .ok (.wWave 0x10#8 0x00#8) ∧
    decode .wave [0xDF#8, 0x00#8] = .ok (.wWave 0xDF#8 0x00#8) ∧
    decode .wave [0xE1#8, 0x80#8] = .ok (.wMute 1#4 0x80#8) ∧ decode .wave [0xEF#8, 0x80#8] = .ok (.wMute 15#4 0x80#8) ∧
    decode .wave [0xFF#8, 0x02#8] = .ok (.wJump 0x02#8) := ⟨rfl, rfl, rfl, rfl, rfl, rfl, rfl, rfl⟩

/-- R109, R116: the embedded commands. -/
theorem test_decode_embedded_low :
    decode .wave [0xF0#8, 0x07#8] = .ok (.wxNop 0x07#8) ∧ decode .wave [0xF1#8, 0x07#8] = .ok (.wxPup 0x07#8) ∧
    decode .wave [0xF2#8, 0x07#8] = .ok (.wxPdn 0x07#8) ∧ decode .wave [0xF3#8, 0x07#8] = .ok (.wxTpo 0x07#8) ∧
    decode .wave [0xF4#8, 0x07#8] = .ok (.wxVib 0x07#8) ∧ decode .wave [0xF5#8, 0x07#8] = .ok (.wxSad 0x07#8) ∧
    decode .wave [0xF6#8, 0x07#8] = .ok (.wxSsr 0x07#8) ∧ decode .wave [0xF7#8, 0x07#8] = .ok (.wxSwv 0x07#8) :=
  ⟨rfl, rfl, rfl, rfl, rfl, rfl, rfl, rfl⟩

/-- R109, R116. -/
theorem test_decode_embedded_high :
    decode .wave [0xF8#8, 0x07#8] = .ok (.wxSwp 0x07#8) ∧ decode .wave [0xF9#8, 0x07#8] = .ok (.wxSpp 0x07#8) ∧
    decode .wave [0xFA#8, 0x07#8] = .ok (.wxSfp 0x07#8) ∧ decode .wave [0xFB#8, 0x07#8] = .ok (.wxSfc 0x07#8) ∧
    decode .wave [0xFC#8, 0x07#8] = .ok (.wxSco 0x07#8) ∧ decode .wave [0xFD#8, 0x07#8] = .ok (.wxSmv 0x07#8) ∧
    decode .wave [0xFE#8, 0x07#8] = .ok (.wxFnk 0x07#8) := ⟨rfl, rfl, rfl, rfl, rfl, rfl, rfl⟩

/-- R110; bits 6:4 of a set entry are ignored. -/
theorem test_decode_pulse :
    decode .pulse [0x00#8, 0x55#8] = .ok (.pHold 0x55#8) ∧ decode .pulse [0x7F#8, 0x20#8] = .ok (.pMod 127#7 0x20#8) ∧
    decode .pulse [0xF5#8, 0xFF#8] = .ok (.pSet 5#4 0xFF#8) ∧ decode .pulse [0xFE#8, 0x00#8] = .ok (.pSet 14#4 0x00#8) ∧
    decode .pulse [0xFF#8, 0x06#8] = .ok (.pJump 0x06#8) := ⟨rfl, rfl, rfl, rfl, rfl⟩

/-- R111; bits 3:0 of a type entry are ignored. -/
theorem test_decode_filter :
    decode .filter [0x00#8, 0x40#8] = .ok (.fCut 0x40#8) ∧ decode .filter [0x03#8, 0x02#8] = .ok (.fMod 3#7 0x02#8) ∧
    decode .filter [0xA5#8, 0x07#8] = .ok (.fType 2#3 0x07#8) ∧ decode .filter [0xFE#8, 0x07#8] = .ok (.fType 7#3 0x07#8) ∧
    decode .filter [0xFF#8, 0x03#8] = .ok (.fJump 0x03#8) := ⟨rfl, rfl, rfl, rfl, rfl⟩

/-- R112, R113, R114. -/
theorem test_decode_speed_noteadj_action :
    decode .slide [0x80#8, 0x02#8] = .ok (.sSlide 0x80#8 0x02#8) ∧
    decode .vibrato [0x03#8, 0x10#8] = .ok (.sVib 0x03#8 0x10#8) ∧
    decode .funk [0x09#8, 0x06#8] = .ok (.sFunk 0x09#8 0x06#8) ∧ decode .noteadj [0x80#8] = .ok .naKeep ∧
    decode .noteadj [0x7F#8] = .ok (.naRel 0x7F#7) ∧ decode .noteadj [0x81#8] = .ok (.naAbs 0x01#7) ∧
    decode .action [0x00#8] = .ok .aNone ∧ decode .action [0x01#8] = .ok .aStart ∧
    decode .action [0x02#8] = .ok .aPause ∧ decode .action [0x03#8] = .ok .aStop :=
  ⟨rfl, rfl, rfl, rfl, rfl, rfl, rfl, rfl, rfl, rfl⟩

/-- R114: the host operations, by name. -/
theorem test_decode_host :
    decodeHost .playRoutine = .hTick ∧ decodeHost (.setAction 3#2) = .hAction 3#2 ∧
    decodeHost (.playTestNote 0x90#8 0x02#8 1#2) = .hTestnote 0x90#8 0x02#8 1#2 ∧
    decodeHost (.releaseNote 2#2) = .hRelease 2#2 ∧ decodeHost (.setChannelActive 0#2 true) = .hActive 0#2 true ∧
    decodeHost (.setStart 1#2 4#8 5#8) = .hSetstart 1#2 4#8 5#8 ∧ decodeHost (.setLoop true) = .hSetloop true := by
  decide

theorem test_decode_short_word : decode .wave [0x41#8] = .error (.tooShort .wave) := rfl

/-- The words of the opcode table (assumption log 5). -/
theorem test_decode_table_words :
    decodeTableWord 8 0xC1 = some .nKoff ∧ decodeTableWord 8 0x03 = some (.tpo 0x00#8) ∧
    decodeTableWord 16 0xF500 = some (.wxSad 0x00#8) ∧ decodeTableWord 16 0x8000 = some (.pSet 0#4 0x00#8) :=
  ⟨rfl, rfl, rfl, rfl⟩

/-! ## A small state to run instructions on -/

/-- Cells the examples of the rules use: instrument 2 with the pointers of S3, and a few table entries. -/
def song : Memory :=
  [(0x20, 0x5A#8), (0x21, 0xF8#8), (0x22, 0x10#8), (0x23, 0x08#8), (0x24, 0x04#8), (0x25, 0x21#8), (0x26, 0x03#8),
   (0x27, 0x42#8), (0x28, 0x41#8)] ++
  [(0x403, 0xFF#8), (0x40F, 0x21#8), (0x503, 0x02#8)] ++
  [(0x607, 0x88#8), (0x613, 0xFF#8), (0x614, 0xFF#8), (0x803, 0x90#8), (0x901, 0x40#8), (0x903, 0x90#8)] ++
  [(0xA06, 0x09#8), (0xA20, 0x03#8), (0xA21, 0x80#8), (0xB04, 0x20#8), (0xB06, 0x06#8), (0xB20, 0x10#8),
   (0xB21, 0x02#8)] ++
  [(0xC01, 0x01#8), (0xC02, 0xFE#8), (0xC03, 0xFF#8), (0x1200, 0x02#8), (0x1301, 0x03#8)] ++
  [(0x20200, 0x94#8), (0x20201, 0x42#8), (0x20202, 0x03#8), (0x20203, 0x05#8), (0x20204, 0xC2#8)]

/-- Channel 0 plays index 0x30 with instrument 2. -/
def sounding : Channel :=
  { Channel.reset with instr := 2#6, note := 0x30#8, lastnote := 0x30#7, freq := 0x1168#16, wavePtr := 5#8,
                       pulsePtr := 2#8, pulse := 0x800#12 }

/-- The state the examples run on, in a phase. -/
def songAt (p : Phase) : State := { State.reset with ch0 := sounding, mem := song, phase := p }

/-- The state after an instruction of the song. -/
def run (i : Instr) (s : State) : State := afterInstr i s

theorem test_song_is_canonical : Memory.wf song = true := by decide

/-! ## Results, one step each -/

/-- Vectors 2.1 (R300). -/
theorem test_freq :
    let f := freqAt State.reset.freqRom
    f 0x00#8 = 0x0117#16 ∧ f 0x2F#8 = 0x106E#16 ∧ f 0x30#8 = 0x1168#16 ∧ f 0x5F#8 = 0xFFFF#16 ∧
    f 0x60#8 = 0xFFFF#16 ∧ f 0xFF#8 = 0xFFFF#16 := by decide

/-- R301: with another `F`, here 0x0500 throughout, the same note plays that frequency, and a reset keeps `F`. -/
theorem test_freq_parameter :
    let s := { songAt .waveExec with freqRom := Vector.replicate 96 0x0500#16 }
    (run (.naAbs 0x30#7) s).ch0.freq = 0x0500#16 ∧ (resetBlock [] s).freqRom = Vector.replicate 96 0x0500#16 := by
  decide

/-- R180: the note is transposed; instrument 2 (gate-timer 0x42) disables gate-off. -/
theorem test_note : ((run (.nNote 0x90#8) { songAt .getNewNotes with ch0 := { sounding with trans := 0xFE#8, gate := 0xFF#8 } }).ch0.newnote = 0x8E#8) ∧
    ((run (.nNote 0x90#8) { songAt .getNewNotes with ch0 := { sounding with gate := 0xFF#8 } }).ch0.gate = 0xFF#8) := by decide

/-- R180, R322: an instrument with both flags clear gets gate-off and hard restart. -/
theorem test_note_hard_restart :
    (run (.nNote 0x90#8) { songAt .getNewNotes with ch0 := { sounding with instr := 3#6, gate := 0xFF#8 } }).regAt 5 = 0x0F#8 := by
  decide

theorem test_key_on_off : (run .nKon (songAt .getNewNotes)).ch0.gate = 0xFF#8 ∧
    (run .nKoff { songAt .getNewNotes with ch0 := { sounding with gate := 0xFF#8 } }).ch0.gate = 0xFE#8 := by decide

theorem test_rest_and_none : run .nRest (songAt .getNewNotes) = songAt .getNewNotes ∧
    run (.nNone 0xFF#8) (songAt .getNewNotes) = songAt .getNewNotes := by decide

/-- R107. -/
theorem test_first_wave : (run (.fwWave 0x41#8) (songAt .noteStart)).ch0.wave = 0x41#8 ∧
    (run (.fwWave 0x41#8) (songAt .noteStart)).ch0.gate = 0xFF#8 := by decide

theorem test_first_wave_gates : (run .fwGon (songAt .noteStart)).ch0.gate = 0xFF#8 ∧
    (run .fwGoff { songAt .noteStart with ch0 := { sounding with gate := 0xFF#8 } }).ch0.gate = 0xFE#8 ∧
    run .fwKeep (songAt .noteStart) = songAt .noteStart := by decide

/-- R200's example: the speed pointer of the instrument. -/
theorem test_nop : (run (.nop 0x99#8) { songAt .dispatch with ch0 := { sounding with command := 1#4 } }).ch0.command = 0#4 ∧
    (run (.nop 0x99#8) (songAt .dispatch)).ch0.cmddata = 0x21#8 := by decide

/-- R201, R202. -/
theorem test_portamento_latch : (run (.pup 5#8) { songAt .dispatch with ch0 := { sounding with vibtime := 9#8 } }).ch0.vibtime = 0#8 ∧
    (run (.pup 5#8) (songAt .dispatch)).ch0.command = 1#4 ∧ (run (.pdn 5#8) (songAt .dispatch)).ch0.command = 2#4 := by decide

/-- R203, R204: the phase is kept. -/
theorem test_tpo_vib_latch : (run (.tpo 5#8) { songAt .dispatch with ch0 := { sounding with vibtime := 9#8 } }).ch0.vibtime = 9#8 ∧
    (run (.tpo 5#8) (songAt .dispatch)).ch0.command = 3#4 ∧ (run (.vib 5#8) (songAt .dispatch)).ch0.command = 4#4 := by decide

/-- R205, R206: the examples on channels 1 and 2. -/
theorem test_envelope_bytes : (run (.sad 0x2A#8) { songAt .dispatch with chan := .c1 }).regAt 0x0C = 0x2A#8 ∧
    (run (.ssr 0xF9#8) { songAt .dispatch with chan := .c2 }).regAt 0x14 = 0xF9#8 := by decide

theorem test_set_wave : (run (.swv 0x11#8) (songAt .dispatch)).ch0.wave = 0x11#8 ∧
    (run (.wxSwv 0x05#8) (songAt .waveExec)).ch0.wave = 0x05#8 := by decide

/-- S3, R208 to R210. -/
theorem test_set_pointers : (run (.swp 0x02#8) (songAt .dispatch)).ch0.wavePtr = 0x10#8 ∧
    (run (.spp 0x42#8) (songAt .dispatch)).ch0.pulsePtr = 0x08#8 ∧ (run (.sfp 0x02#8) (songAt .dispatch)).filtPtr = 0x04#8 := by decide

/-- R208 with a wave pointer to a jump: cause 3. -/
theorem test_set_pointer_to_jump :
    (run (.swp 0x03#8) { songAt .dispatch with mem := [(0x32, 0x04#8), (0x403, 0xFF#8)] }).fatal = 0x04#7 ∧
    (run (.swp 0x03#8) { songAt .dispatch with mem := [(0x32, 0x04#8), (0x403, 0xFF#8)] }).ch0.wavePtr = 0x04#8 := by decide

/-- R211 to R213. -/
theorem test_filter_commands : (run (.sfc 0x00#8) { songAt .dispatch with filtPtr := 7#8 }).filtPtr = 0x00#8 ∧
    (run (.sfc 0xF1#8) { songAt .dispatch with filtPtr := 7#8 }).filtPtr = 7#8 ∧
    (run (.sco 0x80#8) (songAt .dispatch)).filtCutoff = 0x80#8 ∧ (run (.smv 0x08#8) (songAt .dispatch)).fader = 8#4 ∧
    (run (.smv 0x10#8) (songAt .dispatch)).fader = 0xF#4 := by decide

/-- R214's and R215's examples. -/
theorem test_tempos : (run (.fnk 0x07#8) (songAt .dispatch)).funk0 = 0x09#8 ∧ (run (.fnk 0x07#8) (songAt .dispatch)).funk1 = 0x06#8 ∧
    (run (.fnk 0x00#8) (songAt .dispatch)).ch2.tempo = 0x00#8 ∧
    (run (.tmp 0x85#8) { songAt .dispatch with chan := .c1 }).ch1.tempo = 5#8 ∧
    (run (.tmp 0x83#8) { songAt .dispatch with chan := .c1 }).ch0.tempo = 5#8 ∧
    (run (.tmp 0x03#8) { songAt .dispatch with chan := .c1 }).ch0.tempo = 3#8 := by decide

/-- R233 and R235: the examples at cursor 5. -/
theorem test_wave_entry : (run (.wWave 0x41#8 0x00#8) (songAt .waveExec)).ch0.wave = 0x41#8 ∧
    (run (.wWave 0x41#8 0x00#8) (songAt .waveExec)).ch0.freq = 0x1168#16 ∧
    (run (.wKeep 0x0C#8) (songAt .waveExec)).ch0.freq = 0x22D0#16 ∧ (run (.wKeep 0x0C#8) (songAt .waveExec)).ch0.lastnote = 0x3C#7 ∧
    (run (.wKeep 0x0C#8) (songAt .waveExec)).ch0.wavePtr = 6#8 := by decide

/-- R234. -/
theorem test_mute_entry : (run (.wMute 1#4 0x80#8) (songAt .waveExec)).ch0.wave = 0x01#8 ∧
    (run (.wMute 1#4 0x80#8) (songAt .waveExec)).phase = .tickNEffects := by decide

/-- R232. -/
theorem test_delay_entry : (run (.wDelay 3#4 0x80#8) (songAt .waveExec)).ch0.wavetime = 1#8 ∧
    (run (.wDelay 3#4 0x80#8) { songAt .waveExec with ch0 := { sounding with wavetime := 3#8 } }).ch0.wavePtr = 6#8 := by decide

/-- R236: 255 goes to 0. -/
theorem test_wave_cursor_wraps :
    (run (.wWave 0x21#8 0x80#8) { songAt .waveExec with ch0 := { sounding with wavePtr := 0xFF#8 } }).ch0.wavePtr = 0#8 := by
  decide

/-- R230: a jump, a halt, and a chained jump. -/
theorem test_wave_jump : (run (.wJump 0x02#8) (songAt .waveExec)).ch0.wavePtr = 2#8 ∧
    (run (.wJump 0x00#8) (songAt .waveExec)).phase = .tickNEffects ∧ (run (.wJump 0x04#8) (songAt .waveExec)).ch0.wavePtr = 0#8 ∧
    (run (.wJump 0x04#8) (songAt .waveExec)).fatal = 0x04#7 := by decide

/-- R240, R248, R254. -/
theorem test_illegal_embedded : (run (.wxNop 0x00#8) (songAt .waveExec)).fatal = 0x20#7 ∧
    (run (.wxSwp 0x02#8) (songAt .waveExec)).ch0.wavePtr = 6#8 ∧ (run (.wxFnk 0x07#8) (songAt .waveExec)).funk0 = 8#8 ∧
    (run (.wxFnk 0x07#8) (songAt .waveExec)).action = 3#2 := by decide

/-- R241, R242: speed entry 5 is `00 20`. -/
theorem test_embedded_slide : (run (.wxPup 0x05#8) (songAt .waveExec)).ch0.freq = 0x1188#16 ∧
    (run (.wxPdn 0x05#8) (songAt .waveExec)).ch0.freq = 0x1148#16 := by decide

/-- R243, R244: tie at once; speed entry 0x21 is `03 10`. -/
theorem test_embedded_tpo_vib :
    (run (.wxTpo 0x00#8) { songAt .waveExec with ch0 := { sounding with freq := 1#16 } }).ch0.freq = 0x1168#16 ∧
    (run (.wxVib 0x21#8) { songAt .waveExec with ch0 := { sounding with freq := 0x1000#16 } }).ch0.freq = 0x1010#16 ∧
    (run (.wxVib 0x21#8) (songAt .waveExec)).ch0.vibtime = 2#8 := by decide

/-- R245, R246. -/
theorem test_embedded_envelope : (run (.wxSad 0x09#8) (songAt .waveExec)).regAt 5 = 0x09#8 ∧
    (run (.wxSsr 0x77#8) { songAt .waveExec with chan := .c2 }).regAt 0x14 = 0x77#8 := by decide

/-- R249, R250. -/
theorem test_embedded_pointers : (run (.wxSpp 0x02#8) (songAt .waveExec)).ch0.pulsePtr = 8#8 ∧
    (run (.wxSfp 0x02#8) (songAt .waveExec)).filtPtr = 4#8 := by decide

/-- R251 to R253. -/
theorem test_embedded_filter : (run (.wxSfc 0x00#8) { songAt .waveExec with filtPtr := 3#8 }).filtPtr = 0#8 ∧
    (run (.wxSco 0x40#8) (songAt .waveExec)).filtCutoff = 0x40#8 ∧ (run (.wxSmv 0x0A#8) (songAt .waveExec)).fader = 0xA#4 ∧
    (run (.wxSmv 0x40#8) (songAt .waveExec)).fader = 0xF#4 := by decide

/-- R281, R283: the examples. -/
theorem test_pulse_set_hold : (run (.pSet 5#4 0xFF#8) (songAt .pulseExec)).ch0.pulse = 0x5FF#12 ∧
    (run (.pSet 5#4 0xFF#8) (songAt .pulseExec)).ch0.pulsePtr = 3#8 ∧ (run (.pHold 0x55#8) (songAt .pulseExec)).ch0 = sounding := by
  decide

/-- R282: `03 F0` from width 0x800. -/
theorem test_pulse_mod : (run (.pMod 3#7 0xF0#8) (songAt .pulseExec)).ch0.pulse = 0x7F0#12 ∧
    (run (.pMod 3#7 0xF0#8) (songAt .pulseExec)).ch0.pulsetime = 2#8 ∧
    (run (.pMod 1#7 0x20#8) (songAt .pulseExec)).ch0.pulsePtr = 3#8 := by decide

/-- R230's example: `PULSE 14: FF 15`, `PULSE 15: FF 14`. -/
theorem test_pulse_jump : (run (.pJump 0x15#8) (songAt .pulseExec)).fatal = 0x08#7 ∧
    (run (.pJump 0x15#8) (songAt .pulseExec)).ch0.pulsePtr = 0#8 ∧ (run (.pJump 0x08#8) (songAt .pulseExec)).ch0.pulsePtr = 8#8 := by
  decide

/-- R292: an entry that absorbs the cutoff set after it, and one that does not. -/
theorem test_filter_type : (run (.fType 1#3 0xF1#8) { songAt .filter with filtPtr := 1#8 }).filtCutoff = 0x40#8 ∧
    (run (.fType 1#3 0xF1#8) { songAt .filter with filtPtr := 1#8 }).filtPtr = 3#8 ∧
    (run (.fType 2#3 0x07#8) { songAt .filter with filtPtr := 3#8 }).filtPtr = 4#8 ∧
    (run (.fType 2#3 0x07#8) { songAt .filter with filtPtr := 3#8 }).filtType = 0x20#8 := by decide

/-- R293, R294. -/
theorem test_filter_cut_mod : (run (.fCut 0x80#8) { songAt .filter with filtPtr := 5#8 }).filtCutoff = 0x80#8 ∧
    (run (.fMod 3#7 0x02#8) { songAt .filter with filtPtr := 3#8, filtCutoff := 0x40#8 }).filtCutoff = 0x42#8 ∧
    (run (.fMod 3#7 0x02#8) { songAt .filter with filtPtr := 3#8 }).filtTime = 2#8 := by decide

/-- R291. -/
theorem test_filter_jump : (run (.fJump 0x03#8) { songAt .filter with filtPtr := 7#8 }).filtPtr = 3#8 ∧
    (run (.fJump 0x00#8) { songAt .filter with filtPtr := 7#8 }).phase = .sharedOut := by decide

/-- R260: entry `80 02` at last note 0x30 is 0x0042. -/
theorem test_slide_reading :
    (run (.sSlide 0x80#8 0x02#8) { songAt .tickNEffects with ch0 := { sounding with command := 1#4, freq := 0#16 } }).ch0.freq = 0x42#16 ∧
    (run (.sSlide 0x00#8 0x20#8) { songAt .tickNEffects with ch0 := { sounding with command := 2#4, freq := 0x10#16 } }).ch0.freq = 0xFFF0#16 := by
  decide

/-- R263: target 0x1168, step 0x0100. -/
theorem test_tone_portamento :
    (run (.sSlide 0x01#8 0x00#8) { songAt .tickNEffects with ch0 := { sounding with command := 3#4, freq := 0x1100#16 } }).ch0.freq = 0x1168#16 ∧
    (run (.sSlide 0x01#8 0x00#8) { songAt .tickNEffects with ch0 := { sounding with command := 3#4, freq := 0x1300#16 } }).ch0.freq = 0x1200#16 := by
  decide

/-- R264: entry `04 10` at phase 0x06. -/
theorem test_vibrato_reading :
    (run (.sVib 0x04#8 0x10#8) { songAt .tickNEffects with ch0 := { sounding with vibtime := 6#8, freq := 0x1030#16 } }).ch0.vibtime = 0xFB#8 ∧
    (run (.sVib 0x04#8 0x10#8) { songAt .tickNEffects with ch0 := { sounding with vibtime := 6#8, freq := 0x1030#16 } }).ch0.freq = 0x1020#16 := by
  decide

theorem test_funk_reading : (run (.sFunk 0x09#8 0x06#8) (songAt .dispatch)).funk0 = 9#8 ∧
    (run (.sFunk 0x09#8 0x06#8) (songAt .dispatch)).funk1 = 6#8 := by decide

/-- R238: the examples with note 0x30. -/
theorem test_note_adjust : (run (.naRel 0x7F#7) (songAt .waveExec)).ch0.lastnote = 0x2F#7 ∧
    (run (.naAbs 0x60#7) (songAt .waveExec)).ch0.freq = 0xFFFF#16 ∧ (run .naKeep (songAt .waveExec)).phase = .tickNEffects := by
  decide

/-- R142: the order list of channel 0 names pattern 1, that of the others pattern 0. -/
theorem test_start : (run .aStart (songAt .actions)).ch0.pattnum = 1#8 ∧ (run .aStart (songAt .actions)).ch0.songptr = 1#8 ∧
    (run .aStart (songAt .actions)).ch0.gatetimer = 2#6 ∧ (run .aStart (songAt .actions)).playing = true := by decide

/-- R142, R170: an empty song, and an illegal pattern number. -/
theorem test_start_fatal : (run .aStart { songAt .actions with mem := [] }).fatal = 0x40#7 ∧
    (run .aStart { songAt .actions with ch0 := { sounding with startOrder := 1#8 } }).fatal = 0x01#7 ∧
    (run .aStart { songAt .actions with ch0 := { sounding with startOrder := 1#8 } }).ch0.trans = 0xFE#8 := by decide

/-- R143. -/
theorem test_pause :
    (run .aPause { songAt .actions with ch0 := { sounding with pattrow := 7#8, curOrder := 3#8, songptr := 4#8 } }).ch0.startRow = 7#8 ∧
    (run .aPause { songAt .actions with ch0 := { sounding with songptr := 4#8 } }).ch0.startOrder = 4#8 ∧
    (run .aPause (songAt .actions)).regAt 0x0C = 0x0F#8 := by decide

/-- R144. -/
theorem test_stop :
    (run .aStop { songAt .actions with playing := true, ch0 := { sounding with startOrder := 1#8, startRow := 2#8 } }).ch0.pattrow = 2#8 ∧
    (run .aStop { songAt .actions with playing := true, ch0 := { sounding with startOrder := 9#8 } }).ch0.songptr = 0#8 ∧
    (run .aStop { songAt .actions with playing := true }).playing = false := by decide

theorem test_no_action : run .aNone (songAt .actions) = songAt .actions := by decide

/-- R321, R323 to R325. -/
theorem test_host_writes : (run (.hAction 2#2) (songAt .idle)).action = 2#2 ∧ (run (.hSetloop true) (songAt .idle)).loopPattern = true ∧
    (run (.hActive 1#2 false) (songAt .idle)).ch1.mute = true ∧ (run (.hSetstart 2#2 7#8 0x85#8) (songAt .idle)).ch2.startRow = 5#8 := by
  decide

theorem test_release : (run (.hRelease 0#2) { songAt .idle with ch0 := { sounding with gate := 0xFF#8 } }).ch0.gate = 0xFE#8 ∧
    run (.hRelease 3#2) (songAt .idle) = songAt .idle := by decide

/-- R322: frozen, with instrument 2 (gate-timer count 2). -/
theorem test_test_note : (run (.hTestnote 0x90#8 0x02#8 1#2) (songAt .idle)).ch1.tick = 3#8 ∧
    (run (.hTestnote 0x90#8 0x02#8 1#2) (songAt .idle)).ch1.newnote = 0x90#8 ∧
    (run (.hTestnote 0xC2#8 0x02#8 1#2) (songAt .idle)) = songAt .idle := by decide

/-- R362: the first tick after reset. -/
theorem test_tick : (run .hTick State.reset).ch1.tick = 4#8 ∧ (run .hTick State.reset).regAt 0x18 = 0x0F#8 := by decide

/-- R57: the straps. -/
theorem test_straps : Config.optRealtime = false ∧ Config.optPulse = false := by decide

/-! ## Witnesses: for every statement with hypotheses, a state and operands that meet them together, clause by clause,
at the ends of their ranges -/

theorem witness_DecodeInvertsEncode :
    (Instr.pSet 15#4 0xFF#8).wf = true ∧ (Instr.pSet 15#4 0xFF#8).format = some .pulse ∧
    (Instr.hSetstart 3#2 0xFF#8 0xFF#8).format = none := by decide

theorem witness_OnlyIgnoredBitsAreLost :
    [0xFE#8, 0x07#8].length = Format.filter.size ∧ decode .filter [0xFE#8, 0x07#8] = .ok (.fType 7#3 0x07#8) := ⟨rfl, rfl⟩

/-- In each phase that runs its instruction bare, and in one that does not. -/
theorem witness_StepRunsFetchedInstruction :
    let f := { songAt .filter with filtPtr := 4#8 }
    let w := { songAt .waveExec with ch0 := { sounding with wavePtr := 0x10#8 } }
    let p := { songAt .pulseExec with ch0 := { sounding with pulsePtr := 8#8 } }
    (f.resetWaiting = false ∧ fetch f = .word .filter [0x90#8, 0x90#8] ∧
      decode .filter [0x90#8, 0x90#8] = .ok (.fType 1#3 0x90#8) ∧ f.phase = .filter) ∧
    (w.resetWaiting = false ∧ fetch w = .word .wave [0x21#8, 0x00#8] ∧
      decode .wave [0x21#8, 0x00#8] = .ok (.wWave 0x21#8 0x00#8) ∧ w.phase = .waveExec) ∧
    (p.resetWaiting = false ∧ fetch p = .word .pulse [0x88#8, 0x00#8] ∧
      decode .pulse [0x88#8, 0x00#8] = .ok (.pSet 8#4 0x00#8) ∧ p.phase = .pulseExec) ∧
    ((songAt .noteStart).resetWaiting = false ∧ fetch (songAt .noteStart) = .word .firstwave [0x41#8] ∧
      decode .firstwave [0x41#8] = .ok (.fwWave 0x41#8)) :=
  ⟨⟨rfl, rfl, rfl, rfl⟩, ⟨rfl, rfl, rfl, rfl⟩, ⟨rfl, rfl, rfl, rfl⟩, ⟨rfl, rfl, rfl⟩⟩

/-- A reset inside a tick; an empty queue; a host operation; stores to the first and last cells and to a hole. -/
theorem witness_StepServesHostRequests :
    { songAt .tickN with requests := [.reset] }.requests = .reset :: [] ∧
    ((songAt .idle).phase = .idle ∧ (songAt .idle).requests = []) ∧
    { songAt .idle with requests := [.call .playRoutine] }.requests = .call .playRoutine :: [] ∧
    { songAt .idle with requests := [.store 0 1#8] }.requests = .store 0 1#8 :: [] ∧
    Memory.mapped 0 = true ∧ Memory.mapped 0x39FFF = true ∧ Memory.mapped 0x3A000 = false ∧ Memory.mapped 9 = false := by
  decide

/-- Every phase, and each walker with its cursor at 0. -/
theorem witness_PhaseTransitions :
    let w := { songAt .waveExec with ch0 := { sounding with wavePtr := 0x00#8 } }
    let p := { songAt .pulseExec with ch0 := { sounding with pulsePtr := 0x00#8 } }
    (songAt .actions).phase = .actions ∧ (songAt .sharedOut).phase = .sharedOut ∧
    ((songAt .filter).phase = .filter ∧ (songAt .filter).filtPtr = 0x00#8) ∧
    (w.phase = .waveExec ∧ (w.ch w.chan).wavePtr = 0x00#8) ∧
    (p.phase = .pulseExec ∧ (p.ch p.chan).pulsePtr = 0x00#8) ∧
    (songAt .enter).phase = .enter ∧ (songAt .tickN).phase = .tickN ∧ (songAt .tick0).phase = .tick0 ∧
    (songAt .noteStart).phase = .noteStart ∧ (songAt .dispatch).phase = .dispatch ∧
    (songAt .waveExec).phase = .waveExec ∧ (songAt .tickNEffects).phase = .tickNEffects ∧
    (songAt .pulseExec).phase = .pulseExec ∧ (songAt .getNewNotes).phase = .getNewNotes ∧
    (songAt .nextChannel).phase = .nextChannel ∧ (∀ p, (songAt p).resetWaiting = false) := by
  refine ⟨rfl, rfl, ⟨rfl, rfl⟩, ⟨rfl, rfl⟩, ⟨rfl, rfl⟩, rfl, rfl, rfl, rfl, rfl, rfl, rfl, rfl, rfl, rfl, fun p => rfl⟩

/-- After reset, and after a host operation from it. -/
theorem witness_StepKeepsInvariant :
    let s := { State.reset with requests := [.call (.setStart 1#2 0xFF#8 0xFF#8)] }
    s.Inv ∧ step s = .next { State.reset with ch1 := { Channel.reset with startOrder := 0xFF#8, startRow := 0x7F#8 } } :=
  ⟨by decide, rfl⟩

/-- A counter at the end of its range, 0x0F, on a delay entry of 15 ticks. -/
theorem witness_StepKeepsWaveDelayBound :
    let s := { State.reset with
      phase := .enter, mem := [(0x400, 0x0F#8)]
      ch0 := { Channel.reset with wavePtr := 1#8, wavetime := 0x0F#8 } }
    s.WaveDelayBounded ∧ s.phase ≠ .idle ∧
    step s = .next { s with phase := .tickN, ch0 := { Channel.reset with wavePtr := 1#8, wavetime := 0x0F#8, tick := 4#8 } } :=
  ⟨by decide, by decide, rfl⟩

theorem witness_MemoryWriteIsExact :
    Memory.wf [(0, 1#8), (0x39FFF, 0xFF#8)] = true ∧
    Memory.wf (Memory.write [(0, 1#8), (0x39FFF, 0xFF#8)] 0 0#8) = true ∧
    (∀ a, Memory.read [(0x400, 1#8)] a = Memory.read (Memory.write [] 0x400 1#8) a) :=
  ⟨by decide, by decide, fun _ => rfl⟩

theorem witness_EveryCellHasItsOwnAddress :
    (SongCell.left .speed 0xFF#8).inRange = true ∧ (SongCell.patt 207#8 127#8 .data).inRange = true ∧
    (SongCell.orderPatt .c2 0xFE#8).inRange = true ∧
    (SongCell.left .speed 0xFF#8).addr = (SongCell.left .speed 0xFF#8).addr ∧ Memory.mapped 0x39FFF = true := by decide

theorem witness_SongInstructionsCannotReachControl :
    (Instr.wxNop 0x00#8).format = some .wave ∧ Format.wave ≠ .action := by decide

theorem witness_RowFetch :
    (songAt .getNewNotes).phase = .getNewNotes ∧ (songAt .getNewNotes).resetWaiting = false := by decide

theorem witness_NoteStart : (songAt .noteStart).phase = .noteStart ∧ (songAt .noteStart).resetWaiting = false := by decide

theorem witness_EnterDecrementsTheTickCounter :
    (songAt .enter).phase = .enter ∧ (songAt .enter).resetWaiting = false := by decide

theorem witness_TickNReloads : (songAt .tickN).phase = .tickN ∧ (songAt .tickN).resetWaiting = false := by decide

/-- The smallest tempo on its last tick, and the largest; and a whole tick of a block whose channel 1 has just had its
tick 0, at the smallest tempo and its last tick. -/
theorem witness_RowPeriodIsTempoPlusOne :
    let s := { songAt .enter with ch0 := { sounding with tick := 0#8, tempo := 2#8 } }
    let u := { songAt .enter with ch0 := { sounding with tick := 0#8, tempo := 0x7F#8 } }
    ((s.ch s.chan).tick = 0x00#8 ∧ 2#8 ≤ (s.ch s.chan).tempo ∧ (s.ch s.chan).tempo < 0x80#8 ∧
      2 ≤ (s.ch s.chan).tempo.toNat) ∧
    ((u.ch u.chan).tick = 0x00#8 ∧ 2#8 ≤ (u.ch u.chan).tempo ∧ (u.ch u.chan).tempo < 0x80#8 ∧
      127 ≤ (u.ch u.chan).tempo.toNat) := by decide

theorem witness_RowPeriodIsTempoPlusOne_tick :
    let s := { State.reset with ch1 := { Channel.reset with tick := 0x00#8, tempo := 2#8 } }
    s.phase = .idle ∧ s.action ≠ 1#2 ∧ (s.ch .c1).tick = 0x00#8 ∧ 2#8 ≤ (2#8 : Byte) ∧ (2#8 : Byte) < 0x80#8 ∧
    2 ≤ (2#8 : Byte).toNat ∧
    ∀ m, (tickAt m s).phase = .tickN → (tickAt m s).chan = .c1 → ((tickAt m s).ch .c1).tempo = 2#8 := by
  intro s
  have ended : (tickAt 21 s).phase = .idle := by decide
  have early : ∀ m < 21, (tickAt m s).phase = .tickN → (tickAt m s).chan = .c1 →
      ((tickAt m s).ch .c1).tempo = 2#8 := by decide
  refine ⟨rfl, by decide, rfl, by decide, by decide, by decide, fun m hp hc => ?_⟩
  rcases Nat.lt_or_ge m 21 with hm | hm
  · exact early m hm hp hc
  · rw [tickAt_of_idle ended m hm, ended] at hp
    cases hp

theorem witness_TickZeroReloadsAndTakesTheNote :
    (songAt .tick0).phase = .tick0 ∧ (songAt .tick0).resetWaiting = false := by decide

theorem witness_ConsumedNoteEndsTheTick :
    (songAt .dispatch).phase = .dispatch ∧ (songAt .dispatch).resetWaiting = false := by decide

/-- A song of two order rows looping to the first, with the cursor on the last. -/
theorem witness_SequencerLoops :
    let s := { songAt .idle with ch0 := { sounding with songptr := 1#8 } }
    (s.ch .c0).songptr < s.songLen ∧ s.songLoop < s.songLen := by decide

/-- The first tick, the last waiting tick and the passing tick of the longest delay. -/
theorem witness_DelayEntries :
    (15#4 : BitVec 4) ≠ 0#4 ∧ ((songAt .waveExec).ch (songAt .waveExec).chan).wavetime = 0x00#8 ∧
    (1 ≤ 1 ∧ 1 ≤ (15#4).toNat + 1) ∧ (1 ≤ 15 ∧ 15 ≤ (15#4).toNat + 1) ∧ (1 ≤ 16 ∧ 16 ≤ (15#4).toNat + 1) := by decide

theorem witness_EmbeddedCommands :
    Instr.wxNop 7#8 ∈ [Instr.wxNop 7#8, .wxSwp 7#8, .wxFnk 7#8] ∧
    Instr.wxSwp 7#8 ∈ [Instr.wxNop 7#8, .wxSwp 7#8, .wxFnk 7#8] ∧
    Instr.wxFnk 7#8 ∈ [Instr.wxNop 7#8, .wxSwp 7#8, .wxFnk 7#8] := by decide

/-- R261's two zero cases, at the first value of each range. -/
theorem witness_SlideSteps : 95#7 ≤ (95#7 : BitVec 7) ∧ 16#8 ≤ (16#8 : Byte) ∧ 95#8 ≤ (95#8 : Byte) := by decide

/-- A channel below its target by less than one step, and one above, neither of which can wrap. -/
theorem witness_TonePortamentoStepsToTheTarget :
    let s := { songAt .tickNEffects with ch0 := { sounding with freq := 0x1160#16 } }
    let u := { songAt .tickNEffects with ch0 := { sounding with freq := 0xFFFF#16 } }
    0x05#8 ≠ 0x00#8 ∧ (slideStep .c0 0x05#8 s).toNat = 0x20 ∧ (freqAt s.freqRom s.ch0.note).toNat = 0x1168 ∧
    s.ch0.freq.toNat ≤ 0x1168 ∧ 0x1168 + 0x20 ≤ 65536 ∧ 0x1168 ≤ u.ch0.freq.toNat ∧ 0x20 ≤ 0x1168 + 1 ∧
    (slideStep .c0 0x05#8 u).toNat = 0x20 ∧ (freqAt u.freqRom u.ch0.note).toNat = 0x1168 := by decide

theorem witness_FreqLookupClamps : 95#8 ≤ (95#8 : Byte) ∧ 95#8 ≤ (0xFF#8 : Byte) := by decide

/-- The last compare value that cycles, and the two that do not. -/
theorem witness_VibratoCycle :
    sounding.vibtime = 0x00#8 ∧ (125#8 < 0x80#8 ∧ 125#8 ≤ 125#8) ∧ (126#8 < 0x80#8 ∧ ¬ 126#8 ≤ 125#8) ∧
    (127#8 < 0x80#8 ∧ ¬ 127#8 ≤ 125#8) := by decide

theorem witness_LatchedCommandEffects :
    (songAt .tickNEffects).phase = .tickNEffects ∧ (songAt .tickNEffects).resetWaiting = false := by decide

theorem witness_SpeedEntryReadings :
    0x21#8 ≠ 0x00#8 ∧ 0x03#8 = (songAt .tickNEffects).left .speed 0x21#8 ∧
    0x10#8 = (songAt .tickNEffects).right .speed 0x21#8 := by decide

theorem witness_PulseEntries : (1#7 : BitVec 7) ≠ 0#7 ∧ (127#7 : BitVec 7) ≠ 0#7 := by decide

theorem witness_FilterEntries : (1#7 : BitVec 7) ≠ 0#7 ∧ (127#7 : BitVec 7) ≠ 0#7 := by decide

/-- The first and last ticks of the longest modulation, for the pulse and for the filter walker. -/
theorem witness_ModulationsOccupyTheirTicks :
    ((songAt .pulseExec).ch (songAt .pulseExec).chan).pulsetime = 0x00#8 ∧ (songAt .filter).filtTime = 0x00#8 ∧
    (1 ≤ 1 ∧ 1 ≤ (127#7).toNat) ∧ (1 ≤ 127 ∧ 127 ≤ (127#7).toNat) := by decide

theorem witness_SharedWriteOut :
    (songAt .sharedOut).phase = .sharedOut ∧ (songAt .sharedOut).resetWaiting = false := by decide

theorem witness_ChannelWriteOut :
    (songAt .nextChannel).phase = .nextChannel ∧ (songAt .nextChannel).resetWaiting = false := by decide

theorem witness_TickWritesTheImage : (songAt .idle).phase = .idle := by decide

/-- A phase that writes no envelope byte, and a tick with none: the first after reset. -/
theorem witness_EnvelopeBytesKeepTheirValue :
    ((songAt .tickN).phase ≠ .idle ∧ (songAt .tickN).resetWaiting = false ∧ ¬ WritesEnvelope .c0 5 (songAt .tickN)) ∧
    (State.reset.phase = .idle ∧ ∀ n, ¬ WritesEnvelope .c2 6 (tickAt n State.reset)) ∧
    (Instr.hRelease 2#2).format = none ∧ Instr.hRelease 2#2 ≠ .hTick ∧
    (∀ n ins ch, Instr.hRelease 2#2 ≠ .hTestnote n ins ch) := by
  have ended : (tickAt 21 State.reset).phase = .idle := by decide
  have early : ∀ n < 22, ¬ WritesEnvelope .c2 6 (tickAt n State.reset) := by unfold WritesEnvelope; decide
  refine ⟨⟨by decide, rfl, by unfold WritesEnvelope; decide⟩, ⟨rfl, fun n => ?_⟩, rfl, by decide, by simp⟩
  rcases Nat.lt_or_ge n 21 with hn | hn
  · exact early n (by omega)
  · rw [tickAt_of_idle ended n hn]
    exact early 21 (by decide)

/-- A Start that meets an illegal pattern number, and one that does not. -/
theorem witness_StartAction :
    let s := { songAt .actions with ch0 := { sounding with startOrder := 1#8 } }
    let u := songAt .actions
    s.songLen ≠ 0x00#8 ∧ 208#8 ≤ s.orderPatt .c0 (if s.ch0.startOrder < s.songLen then s.ch0.startOrder else 0x00#8) ∧
    ¬ 208#8 ≤ u.orderPatt .c0 0x00#8 ∧ ¬ 208#8 ≤ u.orderPatt .c1 0x00#8 ∧ ¬ 208#8 ≤ u.orderPatt .c2 0x00#8 := by decide

theorem witness_TickIsItsPhases : (songAt .idle).phase = .idle ∧ (songAt .idle).resetWaiting = false := by decide

theorem witness_TickLeavesTheHostsStateAlone : (songAt .idle).phase = .idle ∧ (songAt .idle).action ≠ 2#2 := by decide

theorem witness_TickTakesOneAction : (songAt .idle).phase = .idle ∧ (songAt .idle).action ≠ 1#2 := by decide

theorem witness_StopClearsGateBitsWithinItsTick :
    let p := { songAt .idle with action := 2#2, playing := true }
    let s := { songAt .idle with action := 3#2, playing := true }
    (p.phase = .idle ∧ p.action = 2#2) ∧ (s.phase = .idle ∧ s.action = 3#2) := by decide

theorem witness_FrozenTickStaysInPlace :
    (songAt .idle).phase = .idle ∧ (songAt .idle).playing = false ∧ (songAt .idle).action = 0#2 := by decide

theorem witness_HostRegisterWrites :
    (songAt .idle).phase = .idle ∧ (2#2).toNat = Chan.c2.idx ∧ (∀ c : Chan, (3#2).toNat ≠ c.idx) :=
  ⟨rfl, rfl, fun c => by cases c <;> decide⟩

theorem witness_TestNote :
    (songAt .idle).phase = .idle ∧ (0#2).toNat = Chan.c0.idx ∧ (1#2).toNat = Chan.c1.idx ∧ (2#2).toNat = Chan.c2.idx := by
  decide

theorem witness_HostOperationsAreRefusedDuringATick :
    (songAt .tickN).phase ≠ .idle ∧ Instr.hTick.format = none ∧ (Instr.hSetloop true).format = none := by decide

end Sys2Proof.Tests
end

section
/-! SUPPORT. What every change inside a tick keeps (R61), one lemma per operation of the model. -/

namespace Sys2Proof.Machine

/-! ## The relation between the states before and after a change -/

/-- A change of a channel, over the song memories of `s`, keeps the channel's invariants and the bound on its delay
counter (R61). -/
def ChannelKeeps (s : State) (x y : Channel) : Prop :=
  (x.Inv → y.Inv) ∧ (x.DelayBounded s → y.DelayBounded s)

/-- A change of the state keeps every invariant of R61, and writes neither the song memories nor the frequency ROM.
Every change inside a tick and every host operation is one. -/
structure Keeps (s t : State) : Prop where
  channels : ∀ c, ChannelKeeps s (s.ch c) (t.ch c)
  filtType : s.filtType &&& 0x8F#8 = 0#8 → t.filtType &&& 0x8F#8 = 0#8
  mem : t.mem = s.mem
  freqRom : t.freqRom = s.freqRom

theorem inv_iff (s : State) :
    s.Inv ↔ (∀ c, (s.ch c).Inv) ∧ s.filtType &&& 0x8F#8 = 0#8 ∧ Memory.wf s.mem = true :=
  ⟨fun ⟨h0, h1, h2, hf, hm⟩ => ⟨fun | .c0 => h0 | .c1 => h1 | .c2 => h2, hf, hm⟩,
    fun ⟨hc, hf, hm⟩ => ⟨hc .c0, hc .c1, hc .c2, hf, hm⟩⟩

theorem waveDelayBounded_iff (s : State) : s.WaveDelayBounded ↔ ∀ c, (s.ch c).DelayBounded s :=
  ⟨fun ⟨h0, h1, h2⟩ => fun | .c0 => h0 | .c1 => h1 | .c2 => h2, fun h => ⟨h .c0, h .c1, h .c2⟩⟩

/-- The bound on a delay counter looks at nothing of the state but the song memories. -/
theorem delayBounded_congr {s t : State} (h : t.mem = s.mem) (x : Channel) : x.DelayBounded t ↔ x.DelayBounded s := by
  simp only [Channel.DelayBounded, State.left, h]

theorem Keeps.inv {s t : State} (h : Keeps s t) (hs : s.Inv) : t.Inv := by
  obtain ⟨hc, hf, hm⟩ := (inv_iff s).mp hs
  exact (inv_iff t).mpr ⟨fun c => (h.channels c).1 (hc c), h.filtType hf, h.mem ▸ hm⟩

theorem Keeps.waveDelayBounded {s t : State} (h : Keeps s t) (hs : s.WaveDelayBounded) : t.WaveDelayBounded :=
  (waveDelayBounded_iff t).mpr fun c =>
    (delayBounded_congr h.mem _).mpr ((h.channels c).2 ((waveDelayBounded_iff s).mp hs c))

theorem ChannelKeeps.refl (s : State) (x : Channel) : ChannelKeeps s x x := ⟨id, id⟩

theorem ChannelKeeps.trans {s : State} {x y z : Channel} (h : ChannelKeeps s x y) (k : ChannelKeeps s y z) :
    ChannelKeeps s x z := ⟨k.1 ∘ h.1, k.2 ∘ h.2⟩

/-- A change that writes no channel register, not the filter type, no cell and not the ROM. -/
theorem Keeps.of_same {s t : State} (h0 : t.ch0 = s.ch0 := by rfl) (h1 : t.ch1 = s.ch1 := by rfl)
    (h2 : t.ch2 = s.ch2 := by rfl) (hf : t.filtType = s.filtType := by rfl) (hm : t.mem = s.mem := by rfl)
    (hr : t.freqRom = s.freqRom := by rfl) : Keeps s t where
  channels
    | .c0 => by simp only [State.ch, h0, ChannelKeeps.refl]
    | .c1 => by simp only [State.ch, h1, ChannelKeeps.refl]
    | .c2 => by simp only [State.ch, h2, ChannelKeeps.refl]
  filtType h := by rwa [hf]
  mem := hm
  freqRom := hr

theorem Keeps.refl (s : State) : Keeps s s := .of_same

theorem Keeps.trans {s t u : State} (h : Keeps s t) (k : Keeps t u) : Keeps s u where
  channels c :=
    (h.channels c).trans
      ⟨(k.channels c).1, fun hx =>
        (delayBounded_congr h.mem _).mp ((k.channels c).2 ((delayBounded_congr h.mem _).mpr hx))⟩
  filtType := k.filtType ∘ h.filtType
  mem := k.mem.trans h.mem
  freqRom := k.freqRom.trans h.freqRom

/-- A change of one channel. -/
theorem Keeps.of_channel {s t : State} (c : Chan) (hc : ChannelKeeps s (s.ch c) (t.ch c)) (ho : SameOthers c s t)
    (hf : t.filtType = s.filtType) (hm : t.mem = s.mem) (hr : t.freqRom = s.freqRom) : Keeps s t where
  channels d := by
    by_cases hd : d = c
    · exact hd ▸ hc
    · rw [ho d hd]
      exact .refl s _
  filtType h := by rwa [hf]
  mem := hm
  freqRom := hr

theorem modCh_keeps {s : State} {c : Chan} {f : Channel → Channel} (h : ChannelKeeps s (s.ch c) (f (s.ch c))) :
    Keeps s (s.modCh c f) :=
  .of_channel c (by rwa [modCh_ch_self]) (fun d hd => modCh_ch_ne s c d f hd) (by simp) (by simp) (by simp)

theorem Keeps.ite {s t u : State} {p : Prop} [Decidable p] (ht : Keeps s t) (hu : Keeps s u) :
    Keeps s (if p then t else u) := by
  split_ifs
  · exact ht
  · exact hu

theorem modCur_keeps {s : State} {f : Channel → Channel} (h : ChannelKeeps s s.cur (f s.cur)) :
    Keeps s (s.modCur f) := modCh_keeps h

/-- An instruction that is an update of the channel being stepped and nothing else. -/
theorem settled_modCur_keeps {s : State} {f : Channel → Channel} (h : ChannelKeeps s s.cur (f s.cur)) :
    Keeps s (settled s (.next (s.modCur f))) := modCur_keeps h

/-! ## Changes of one channel

A change that writes no register the invariants speak of is `⟨id, id⟩`; the registers they speak of are written by
these rules. -/

section
variable {s : State} {x : Channel}

theorem channelKeeps_gateOff : ChannelKeeps s x { x with gate := 0xFE#8 } :=
  ⟨fun ⟨hi, _, hrest⟩ => ⟨hi, .inl rfl, hrest⟩, id⟩

theorem channelKeeps_gateOn : ChannelKeeps s x { x with gate := 0xFF#8 } :=
  ⟨fun ⟨hi, _, hrest⟩ => ⟨hi, .inr rfl, hrest⟩, id⟩

theorem channelKeeps_command {k : BitVec 4} (hk : k ≤ 4#4) : ChannelKeeps s x { x with command := k } :=
  ⟨fun ⟨hi, hg, _, hrest⟩ => ⟨hi, hg, hk, hrest⟩, id⟩

theorem channelKeeps_tempo {v : Byte} (hv : x.tempo < 0x80#8 → v < 0x80#8) : ChannelKeeps s x { x with tempo := v } :=
  ⟨fun ⟨hi, hg, hc, ht, hrest⟩ => ⟨hi, hg, hc, hv ht, hrest⟩, id⟩

theorem channelKeeps_instr {i : BitVec 6} (hi : x.instr ≠ 0#6 → i ≠ 0#6) : ChannelKeeps s x { x with instr := i } :=
  ⟨fun ⟨hx, hrest⟩ => ⟨hi hx, hrest⟩, id⟩

theorem channelKeeps_pattrow {r : Byte} (hr : x.startRow < 128#8 → r = Config.pattEnd ∨ r < 128#8) :
    ChannelKeeps s x { x with pattrow := r } :=
  ⟨fun ⟨hi, hg, hc, ht, _, hp, hs⟩ => ⟨hi, hg, hc, ht, hr hs, hp, hs⟩, id⟩

theorem channelKeeps_pattnum {p : Byte} (hp : p < 208#8) : ChannelKeeps s x { x with pattnum := p } :=
  ⟨fun ⟨hi, hg, hc, ht, hr, _, hs⟩ => ⟨hi, hg, hc, ht, hr, hp, hs⟩, id⟩

theorem channelKeeps_startRow {r : Byte} (hr : x.pattrow = Config.pattEnd ∨ x.pattrow < 128#8 → r < 128#8) :
    ChannelKeeps s x { x with startRow := r } :=
  ⟨fun ⟨hi, hg, hc, ht, hrow, hp, _⟩ => ⟨hi, hg, hc, ht, hrow, hp, hr hrow⟩, id⟩

/-- A wave cursor that moves with its delay counter cleared. -/
theorem channelKeeps_wavePtr {p : Byte} : ChannelKeeps s x { x with wavePtr := p, wavetime := 0x00#8 } :=
  ⟨id, fun _ => .inl rfl⟩

theorem slideUp_keeps (d : Word) : ChannelKeeps s x (slideUp d x) := ⟨id, id⟩

theorem slideDown_keeps (d : Word) : ChannelKeeps s x (slideDown d x) := ⟨id, id⟩

theorem tieToTarget_keeps (rom : Vector Word 96) : ChannelKeeps s x (tieToTarget rom x) := ⟨id, id⟩

theorem approachFromBelow_keeps (v d : Word) : ChannelKeeps s x (approachFromBelow v d x) := by
  unfold approachFromBelow; split_ifs <;> exact ⟨id, id⟩

theorem approachFromAbove_keeps (v d : Word) : ChannelKeeps s x (approachFromAbove v d x) := by
  unfold approachFromAbove; split_ifs <;> exact ⟨id, id⟩

theorem approachTarget_keeps (rom : Vector Word 96) (d : Word) : ChannelKeeps s x (approachTarget rom d x) :=
  (approachFromBelow_keeps _ d).trans (approachFromAbove_keeps _ d)

theorem vibrateBy_keeps (op : Byte × Word) : ChannelKeeps s x (vibrateBy op x) := ⟨id, id⟩

theorem pulseModulate_keeps (r : Byte) : ChannelKeeps s x (pulseModulate r x) := by
  rcases pulseModulate_cases r x with ⟨_, h⟩ | ⟨_, _, h⟩ | ⟨_, _, h⟩ <;> rw [h] <;> exact ⟨id, id⟩

/-- A pulse entry's own part, then its modulation step (R280). -/
theorem pulseEntry_keeps (r : Byte) {f : Channel → Channel} (hf : ChannelKeeps s x (f x)) :
    ChannelKeeps s x (pulseModulate r (pulseStart f x)) := by
  refine .trans ?_ (pulseModulate_keeps r)
  unfold pulseStart
  split_ifs
  · exact hf
  · exact .refl s x

theorem effectsWithoutEntry_keeps (rom : Vector Word 96) : ChannelKeeps s x (effectsWithoutEntry rom x) := by
  unfold effectsWithoutEntry; split_ifs <;> exact ⟨id, id⟩

/-- The tempo after a reload is the tempo, or the other funk tempo (R152). -/
theorem reload_tempo_lt (h : x.tempo < 0x80#8) : (reload s x).2 < 0x80#8 := by
  unfold reload funkPath
  split
  · next hfunk =>
    have htempo : x.tempo = 0#8 ∨ x.tempo = 1#8 := by simp only [decide_eq_true_eq] at hfunk; bv_omega
    rcases htempo with h0 | h1
    · simp [h0]
    · simp [h1]
  · exact h

theorem tempoValue_lt (d : Byte) : tempoValue d < 0x80#8 := by
  have h : (tempoValue d).toNat ≤ 0x7F := Nat.and_le_right
  rw [BitVec.lt_def]
  exact Nat.lt_of_le_of_lt h (by decide)

/-- The instrument of a row or a test note: slot 0 keeps the channel's (R180, R322). -/
theorem chosenInstr_ne_zero {i : BitVec 6} (h : x.instr ≠ 0#6) : (if i = 0#6 then x.instr else i) ≠ 0#6 := by
  split_ifs with hi
  · exact h
  · exact hi

end

/-! ## The shared operations -/

section
variable (s : State)

theorem goto_keeps (p : Phase) : Keeps s (s.goto p) := .of_same

theorem setReg_keeps (a : Fin 25) (v : Byte) : Keeps s (s.setReg a v) := .of_same

theorem setEnvelope_keeps (c : Chan) (ad sr : Byte) : Keeps s (setEnvelope c ad sr s) := .of_same

theorem raiseFatal_keeps (k : Cause) : Keeps s (raiseFatal k s) := .of_same

theorem raiseFatalIf_keeps (b : Bool) (k : Cause) : Keeps s (raiseFatalIf b k s) := by
  rcases raiseFatalIf_cases b k s with ⟨_, h⟩ | ⟨_, h⟩ <;> rw [h]
  · exact raiseFatal_keeps s k
  · exact .refl s

theorem release_keeps (c : Chan) : Keeps s (release c s) :=
  (modCh_keeps (channelKeeps_gateOff.trans (channelKeeps_command (k := 0#4) (by decide)))).trans
    (setEnvelope_keeps _ c _ _)

/-- The pattern number the sequencer loads is legal: an illegal one is replaced by 0 (R170). -/
theorem sequencer_pattnum_lt (c : Chan) :
    (if orderIllegal c s then 0x00#8 else s.orderPatt c (orderIndex c s)) < 208#8 := by
  split
  · decide
  · next h => exact BitVec.not_le.mp fun hle => h (decide_eq_true hle)

theorem sequencer_keeps (c : Chan) : Keeps s (sequencer c s) :=
  (modCh_keeps ((channelKeeps_pattnum (sequencer_pattnum_lt s c)).trans
    (channelKeeps_pattrow (r := 0x00#8) fun _ => .inr (by decide)))).trans (raiseFatalIf_keeps _ _ _)

theorem loadWavePtr_keeps (c : Chan) (p : Byte) : Keeps s (loadWavePtr c p s) :=
  (modCh_keeps channelKeeps_wavePtr).trans (raiseFatalIf_keeps _ _ _)

theorem loadPulsePtr_keeps (c : Chan) (p : Byte) : Keeps s (loadPulsePtr c p s) :=
  (modCh_keeps ⟨id, id⟩).trans (raiseFatalIf_keeps _ _ _)

theorem loadFilterPtr_keeps (p : Byte) : Keeps s (loadFilterPtr p s) :=
  Keeps.trans (t := { s with filtPtr := p, filtTime := 0x00#8 }) .of_same (raiseFatalIf_keeps _ _ _)

theorem setFilterControl_keeps (d : Byte) : Keeps s (setFilterControl d s) := .of_same

theorem setMasterVolume_keeps (d : Byte) : Keeps s (setMasterVolume d s) := by
  rcases setMasterVolume_cases d s with ⟨_, h⟩ | ⟨_, h⟩ <;> rw [h] <;> exact .of_same

theorem setAllTempos_keeps {v : Byte} (hv : v < 0x80#8) : Keeps s (setAllTempos v s) where
  channels c := by rw [setAllTempos_ch]; exact channelKeeps_tempo fun _ => hv
  filtType := id
  mem := rfl
  freqRom := rfl

/-! ## Notes -/

/-- A lead-in writes the gate and the envelope bytes only. -/
theorem leadIn_instr (c : Chan) (g : Byte) : ((leadIn c g s).ch c).instr = (s.ch c).instr := by
  unfold leadIn
  split_ifs <;> simp

theorem leadIn_keeps (c : Chan) (g : Byte) : Keeps s (leadIn c g s) := by
  unfold leadIn
  split_ifs
  · exact .refl s
  · exact modCh_keeps channelKeeps_gateOff
  · exact (modCh_keeps channelKeeps_gateOff).trans (setEnvelope_keeps _ c _ _)

theorem releaseNote_keeps (c : Chan) : Keeps s (releaseNote c s) := modCh_keeps channelKeeps_gateOff

theorem nNote_keeps (n : Byte) : Keeps s (perform (.nNote n) s) := by
  have hqueue : Keeps s (s.modCur fun x => { x with newnote := n + x.trans, nnPend := true }) :=
    modCur_keeps ⟨id, id⟩
  simp only [perform, execNNote, settled_next]
  split_ifs
  · exact hqueue
  · exact hqueue.trans (leadIn_keeps _ _ _)

/-! ## Pattern commands -/

theorem fnk_keeps (d : Byte) : Keeps s (perform (.fnk d) s) := by
  simp only [perform, execFnk, settled_next]
  refine .trans ?_ (setAllTempos_keeps _ (by decide))
  split_ifs <;> exact .of_same

theorem tmp_keeps (d : Byte) : Keeps s (perform (.tmp d) s) := by
  simp only [perform, execTmp, settled_next]
  split_ifs
  · exact modCur_keeps (channelKeeps_tempo fun _ => tempoValue_lt d)
  · exact setAllTempos_keeps s (tempoValue_lt d)

/-! ## The wave walker -/

theorem waveAdvance_keeps : Keeps s (waveAdvance s) := modCur_keeps channelKeeps_wavePtr

theorem applyNote_keeps (n : BitVec 7) : Keeps s (applyNote n s) := (modCur_keeps ⟨id, id⟩).trans (goto_keeps _ _)

theorem noteAdjust_keeps (r : Byte) : Keeps s (noteAdjust r s) := by
  rcases noteAdjust_cases r s with ⟨_, h⟩ | ⟨_, h⟩ | ⟨_, h⟩ <;> rw [h]
  · exact goto_keeps s _
  · exact applyNote_keeps s _
  · exact applyNote_keeps s _

/-- A passed entry and its note adjustment (R236, R238). -/
theorem wavePass_keeps (r : Byte) : Keeps s (noteAdjust r (waveAdvance s)) :=
  (waveAdvance_keeps s).trans (noteAdjust_keeps _ r)

theorem wavePassCommand_keeps : Keeps s (wavePassCommand s) := (waveAdvance_keeps s).trans (goto_keeps _ _)

theorem tonePorta_keeps (c : Chan) (p : Byte) : Keeps s (tonePorta c p s) := by
  unfold tonePorta
  split_ifs
  · exact modCh_keeps (tieToTarget_keeps _)
  · exact modCh_keeps (approachTarget_keeps _ _)

/-- The instruction stands under the wave cursor of the channel being stepped: a delay or a jump is run only as the
wave entry that was fetched there (R231), and of the other instructions nothing is asked. -/
def UnderWaveCursor (s : State) : Instr → Prop
  | .wDelay n _ => s.cur.wavePtr ≠ 0x00#8 ∧ s.left .wave s.cur.wavePtr = n.setWidth 8
  | .wJump _ => s.left .wave s.cur.wavePtr = 0xFF#8
  | _ => True

/-- A delay entry that waits counts up to its delay at most (R232). -/
theorem wavetime_succ_le {w : Byte} {n : BitVec 4} (hw : w = 0x00#8 ∨ w ≤ n.setWidth 8)
    (hne : w ≠ n.setWidth 8) : w + 1#8 ≤ n.setWidth 8 ∧ (n.setWidth 8 : Byte) ≤ 0x0F#8 := by
  bv_omega

theorem wDelay_keeps {n : BitVec 4} {r : Byte} (hw : UnderWaveCursor s (.wDelay n r)) :
    Keeps s (perform (.wDelay n r) s) := by
  obtain ⟨hptr, hleft⟩ := hw
  simp only [perform, execWDelay, settled_next]
  split_ifs with hdone
  · exact wavePass_keeps s r
  · refine (modCur_keeps ⟨id, fun hb => .inr ?_⟩).trans (goto_keeps _ _)
    have hle : s.cur.wavetime = 0x00#8 ∨ s.cur.wavetime ≤ n.setWidth 8 := hb.imp_right fun h => hleft ▸ h.2.1
    obtain ⟨hsucc, hbound⟩ := wavetime_succ_le hle hdone
    exact ⟨hptr, hleft.symm ▸ hsucc, hleft.symm ▸ hbound⟩

/-- On a jump entry the delay counter is 0, since the entry is no delay; so the cursor may move. -/
theorem wJump_keeps {r : Byte} (hw : UnderWaveCursor s (.wJump r)) : Keeps s (perform (.wJump r) s) := by
  have hjump : s.left .wave s.cur.wavePtr = 0xFF#8 := hw
  refine .trans (modCur_keeps ⟨id, fun hb => .inl ?_⟩) ((raiseFatalIf_keeps _ _ _).trans (goto_keeps _ _))
  rcases hb with h0 | ⟨_, _, hle⟩
  · exact h0
  · rw [hjump] at hle
    exact absurd hle (by decide)

/-! ## The pulse and filter walkers -/

theorem afterPulse_keeps : Keeps s (afterPulse s) := goto_keeps s _

theorem pJump_keeps (r : Byte) : Keeps s (perform (.pJump r) s) := by
  have hmove : Keeps s (raiseFatalIf (jumpChained .pulse r s) .jumpIntoJumpPulse
      (s.modCur fun x => { x with pulsePtr := jumpTarget .pulse r s })) :=
    (modCur_keeps ⟨id, id⟩).trans (raiseFatalIf_keeps _ _ _)
  simp only [perform, execPJump, settled_next]
  split_ifs
  · exact hmove.trans (afterPulse_keeps _)
  · exact hmove.trans (goto_keeps _ _)

theorem filterModulate_keeps (r : Byte) : Keeps s (filterModulate r s) := by
  rcases filterModulate_cases r s with ⟨_, h⟩ | ⟨_, _, h⟩ | ⟨_, _, h⟩ <;> rw [h] <;> exact .of_same

/-- A filter entry's own part, then its modulation step (R290). -/
theorem filterEntry_keeps (r : Byte) {f : State → State} (hf : Keeps s (f s)) :
    Keeps s ((filterModulate r (filterStart f s)).goto .sharedOut) := by
  refine .trans ?_ ((filterModulate_keeps _ r).trans (goto_keeps _ _))
  unfold filterStart
  exact .ite hf (.refl s)

theorem absorbCut_keeps : Keeps s (absorbCut s) := by
  unfold absorbCut
  split_ifs <;> exact .of_same

/-- A filter type entry sets bits 6:4 only (R292). -/
theorem filterTypeByte_and (ty : BitVec 3) : filterTypeByte ty &&& 0x8F#8 = 0#8 := by
  revert ty; decide

/-- What a type entry writes before it absorbs a cutoff set (R292). -/
theorem setFilterType_keeps (ty : BitVec 3) (ctl p : Byte) :
    Keeps s { s with filtType := filterTypeByte ty, filtCtrl := ctl, filtPtr := p } where
  channels c := by cases c <;> exact .refl s _
  filtType _ := filterTypeByte_and ty
  mem := rfl
  freqRom := rfl

theorem fType_keeps (ty : BitVec 3) (ctl : Byte) : Keeps s (perform (.fType ty ctl) s) :=
  filterEntry_keeps s ctl
    (f := fun t => absorbCut { t with filtType := filterTypeByte ty, filtCtrl := ctl, filtPtr := t.filtPtr + 1#8 })
    ((setFilterType_keeps s ty ctl _).trans (absorbCut_keeps _))

/-! ## Transport actions -/

theorem startRowBounded_lt (x : Channel) : startRowBounded x s < 128#8 := by
  unfold startRowBounded
  split_ifs with h
  · exact h.1
  · decide

theorem startChannel_keeps (c : Chan) : Keeps s (startChannel c s) := by
  have hsequenced : Keeps s (sequencer c (s.modCh c fun x => { x with songptr := startIndex c s })) :=
    (modCh_keeps ⟨id, id⟩).trans (sequencer_keeps _ c)
  unfold startChannel
  refine hsequenced.trans (modCh_keeps ?_)
  exact ((channelKeeps_pattrow fun _ => .inr (startRowBounded_lt _ _)).trans
    (channelKeeps_command (k := 0#4) (by decide))).trans (channelKeeps_wavePtr (p := 0x00#8))

theorem startShared_keeps : Keeps s (startShared s) where
  channels c := by cases c <;> exact .refl s _
  filtType _ := BitVec.zero_and
  mem := rfl
  freqRom := rfl

theorem setPlaying_keeps (b : Bool) : Keeps s { s with playing := b } := .of_same

theorem clearFatal_keeps : Keeps s { s with fatal := 0#7 } := .of_same

/-- An operation on the three channels in their order. -/
theorem threeChannels_keep {f : Chan → State → State} (hf : ∀ c t, Keeps t (f c t)) :
    Keeps s (f .c2 (f .c1 (f .c0 s))) :=
  ((hf .c0 s).trans (hf .c1 _)).trans (hf .c2 _)

theorem startSong_keeps : Keeps s (startSong s) := by
  simp only [startSong]
  split_ifs
  · exact (clearFatal_keeps s).trans (raiseFatal_keeps _ _)
  · exact (((clearFatal_keeps s).trans (startShared_keeps _)).trans
      (threeChannels_keep _ fun c t => startChannel_keeps t c)).trans (setPlaying_keeps _ true)

theorem pauseChannel_keeps (c : Chan) : Keeps s (pauseChannel c s) := by
  refine .trans (modCh_keeps ?_) (release_keeps _ c)
  split_ifs with hend
  · exact channelKeeps_startRow (r := 0x00#8) fun _ => by decide
  · exact channelKeeps_startRow fun hrow => hrow.resolve_left hend

theorem pauseSong_keeps : Keeps s (pauseSong s) :=
  (threeChannels_keep s fun c t => pauseChannel_keeps t c).trans (setPlaying_keeps _ false)

theorem stopChannel_keeps (c : Chan) : Keeps s (stopChannel c s) :=
  (release_keeps s c).trans (modCh_keeps (channelKeeps_pattrow .inr))

theorem stopSong_keeps : Keeps s (stopSong s) :=
  (threeChannels_keep s fun c t => stopChannel_keeps t c).trans (setPlaying_keeps _ false)

end

end Sys2Proof.Machine
end

section
/-! SUPPORT. Every instruction, every phase, every tick and every host operation keeps the invariants of R61. -/

namespace Sys2Proof.Machine

/-! ## The instructions -/

theorem perform_keeps (i : Instr) (s : State) (hw : UnderWaveCursor s i) : Keeps s (perform i s) := by
  cases i with
  | nRest | nNone | fwKeep | aNone => exact .refl s
  | nKoff | fwGoff => exact settled_modCur_keeps channelKeeps_gateOff
  | nKon | fwGon | fwWave => exact settled_modCur_keeps channelKeeps_gateOn
  | nNote n => exact nNote_keeps s n
  | nop => exact settled_modCur_keeps (channelKeeps_command (k := 0#4) (by decide))
  | pup => exact settled_modCur_keeps (channelKeeps_command (k := 1#4) (by decide))
  | pdn => exact settled_modCur_keeps (channelKeeps_command (k := 2#4) (by decide))
  | tpo => exact settled_modCur_keeps (channelKeeps_command (k := 3#4) (by decide))
  | vib => exact settled_modCur_keeps (channelKeeps_command (k := 4#4) (by decide))
  | sad | ssr => exact setReg_keeps s _ _
  | swv => exact settled_modCur_keeps ⟨id, id⟩
  | swp => exact loadWavePtr_keeps s _ _
  | spp => exact loadPulsePtr_keeps s _ _
  | sfp => exact loadFilterPtr_keeps s _
  | sfc => exact setFilterControl_keeps s _
  | sco | sFunk => exact .of_same
  | smv => exact setMasterVolume_keeps s _
  | fnk d => exact fnk_keeps s d
  | tmp d => exact tmp_keeps s d
  | wKeep r => exact wavePass_keeps s r
  | wDelay => exact wDelay_keeps s hw
  | wWave _ r | wMute _ r => exact (modCur_keeps ⟨id, id⟩).trans (wavePass_keeps _ r)
  | wxNop | wxSwp | wxFnk => exact (raiseFatal_keeps s _).trans (wavePassCommand_keeps _)
  | wxPup => exact (modCur_keeps (slideUp_keeps _)).trans (wavePassCommand_keeps _)
  | wxPdn => exact (modCur_keeps (slideDown_keeps _)).trans (wavePassCommand_keeps _)
  | wxTpo => exact (tonePorta_keeps s _ _).trans (wavePassCommand_keeps _)
  | wxVib => exact (modCh_keeps (vibrateBy_keeps _)).trans (wavePassCommand_keeps _)
  | wxSad | wxSsr => exact (setReg_keeps s _ _).trans (wavePassCommand_keeps _)
  | wxSwv => exact (modCur_keeps ⟨id, id⟩).trans (wavePassCommand_keeps _)
  | wxSpp => exact (loadPulsePtr_keeps s _ _).trans (wavePassCommand_keeps _)
  | wxSfp => exact (loadFilterPtr_keeps s _).trans (wavePassCommand_keeps _)
  | wxSfc r => exact (setFilterControl_keeps s r).trans (wavePassCommand_keeps _)
  | wxSco r => exact Keeps.trans (t := { s with filtCutoff := r }) .of_same (wavePassCommand_keeps _)
  | wxSmv => exact (setMasterVolume_keeps s _).trans (wavePassCommand_keeps _)
  | wJump => exact wJump_keeps s hw
  | pHold r | pMod _ r | pSet _ r => exact (modCur_keeps (pulseEntry_keeps r ⟨id, id⟩)).trans (afterPulse_keeps _)
  | pJump r => exact pJump_keeps s r
  | fCut r | fMod _ r => exact filterEntry_keeps s r .of_same
  | fType ty ctl => exact fType_keeps s ty ctl
  | fJump => exact Keeps.trans .of_same ((raiseFatalIf_keeps _ _ _).trans (goto_keeps _ _))
  | sSlide =>
    refine settled_modCur_keeps ?_
    split_ifs
    · exact slideUp_keeps _
    · exact slideDown_keeps _
    · exact approachTarget_keeps _ _
    · exact .refl s _
  | sVib => exact settled_modCur_keeps (vibrateBy_keeps _)
  | naKeep => exact goto_keeps s _
  | naRel | naAbs => exact applyNote_keeps s _
  | aStart => exact startSong_keeps s
  | aPause => exact pauseSong_keeps s
  | aStop => exact stopSong_keeps s
  | hTick | hAction | hTestnote | hRelease | hActive | hSetstart | hSetloop => exact .refl s

/-! ## What is fetched at the wave cursor -/

/-- A wave entry is fetched from under the cursor of the channel being stepped, by the wave walker (R231). -/
theorem fetch_wave {s : State} {bytes : List Byte} (h : fetch s = .word .wave bytes) :
    s.phase = .waveExec ∧ s.cur.wavePtr ≠ 0x00#8 ∧
      bytes = [s.left .wave s.cur.wavePtr, s.right .wave s.cur.wavePtr] := by
  have format_of_entry : ∀ {k g p}, fetchEntry k g p s = .word .wave bytes →
      g = .wave ∧ p ≠ 0x00#8 ∧ bytes = [s.left k p, s.right k p] := by
    intro k g p he
    unfold fetchEntry at he
    split_ifs at he with hp
    cases he
    exact ⟨rfl, hp, rfl⟩
  cases hp : s.phase with
  | waveExec =>
    simp only [fetch, hp] at h
    exact ⟨rfl, (format_of_entry h).2⟩
  | filter | pulseExec =>
    simp only [fetch, hp] at h
    cases (format_of_entry h).1
  | tickNEffects =>
    simp only [fetch, hp, fetchEffect] at h
    split_ifs at h <;> cases (format_of_entry h).1
  | getNewNotes =>
    simp only [fetch, hp, fetchRow] at h
    split_ifs at h
    cases h
  | idle =>
    simp only [fetch, hp, fetchHost] at h
    split at h <;> cases h
  | actions | noteStart | dispatch | sharedOut | enter | tickN | tick0 | nextChannel =>
    simp only [fetch, hp] at h
    cases h

theorem decodeWave_underWaveCursor {s : State} (r : Byte) (hptr : s.cur.wavePtr ≠ 0x00#8) :
    UnderWaveCursor s (decodeWave (s.left .wave s.cur.wavePtr) r) := by
  unfold decodeWave
  split_ifs with _ hdelay _ _ hjump
  · trivial
  · exact ⟨hptr, by bv_omega⟩
  · trivial
  · trivial
  · exact hjump
  · unfold decodeEmbedded; split <;> trivial

/-- The instructions of the other formats ask nothing of the wave cursor. -/
theorem underWaveCursor_of_format_ne {i : Instr} (s : State) (h : i.format ≠ some .wave) : UnderWaveCursor s i := by
  unfold UnderWaveCursor
  split
  · exact absurd rfl h
  · exact absurd rfl h
  · trivial

/-- What a phase runs stands where the phase fetched it. -/
theorem fetched_underWaveCursor {s : State} {f : Format} {bytes : List Byte} {i : Instr}
    (hf : fetch s = .word f bytes) (hd : decode f bytes = .ok i) : UnderWaveCursor (beforeExec s) i := by
  by_cases hw : f = .wave
  · subst hw
    obtain ⟨hp, hptr, rfl⟩ := fetch_wave hf
    have hs : beforeExec s = s := by unfold beforeExec; rw [hp]
    cases hd
    rw [hs]
    exact decodeWave_underWaveCursor _ hptr
  · exact underWaveCursor_of_format_ne _ fun h => hw (Option.some.inj ((decode_format hd).symm.trans h))

/-! ## The phases of a tick -/

section
variable (s : State)

theorem latchRow_keeps : Keeps s (latchRow s) := by
  refine modCur_keeps ((channelKeeps_instr chosenInstr_ne_zero).trans (channelKeeps_pattrow fun _ => ?_))
  split_ifs with hend
  · exact .inl rfl
  · exact .inr (BitVec.not_le.mp fun hle => hend (.inr hle))

theorem beforeExec_keeps : Keeps s (beforeExec s) := by
  unfold beforeExec
  cases s.phase with
  | idle | actions => exact .of_same
  | getNewNotes => exact latchRow_keeps s
  | filter | noteStart | dispatch | waveExec | tickNEffects | pulseExec => exact .refl s
  | sharedOut | enter | tickN | tick0 | nextChannel => exact .refl s

theorem noteLoads_keeps : Keeps s (noteLoads s) :=
  (((loadWavePtr_keeps s _ _).trans (.ite (.refl _) (loadPulsePtr_keeps _ _ _))).trans
    (.ite (.refl _) (loadFilterPtr_keeps _ _))).trans (setEnvelope_keeps _ _ _ _)

theorem tick0End_keeps : Keeps s (tick0End s) := by
  unfold tick0End
  split_ifs
  · exact (modCur_keeps ⟨id, id⟩).trans (goto_keeps _ _)
  · exact (modCur_keeps ⟨id, id⟩).trans (goto_keeps _ _)
  · exact goto_keeps s _

theorem afterExec_keeps (p : Phase) : Keeps s (afterExec p s) := by
  cases p with
  | actions | tickNEffects | getNewNotes => exact goto_keeps s _
  | noteStart => exact (noteLoads_keeps s).trans (goto_keeps _ _)
  | dispatch => exact tick0End_keeps s
  | idle | filter | waveExec | pulseExec | sharedOut | enter | tickN | tick0 | nextChannel => exact .refl s

theorem tickN_keeps : Keeps s (tickN s) := by
  unfold tickN
  split_ifs
  · exact (modCur_keeps (channelKeeps_tempo reload_tempo_lt)).trans (raiseFatalIf_keeps _ _ _)
  · exact .refl s

theorem endOfPattern_keeps : Keeps s (endOfPattern s) := by
  unfold endOfPattern
  split_ifs
  · exact modCur_keeps (channelKeeps_pattrow (r := 0x00#8) fun _ => .inr (by decide))
  · exact sequencer_keeps s _
  · exact .refl s

theorem consumeNote_keeps : Keeps s (consumeNote s) := by
  unfold consumeNote
  split_ifs
  · exact modCur_keeps (channelKeeps_command (k := 0#4) (by decide))
  · exact .refl s

theorem tick0_keeps : Keeps s (tick0 s) :=
  (((endOfPattern_keeps s).trans (modCur_keeps ⟨id, id⟩)).trans (consumeNote_keeps _)).trans (goto_keeps _ _)

theorem writeChannel_keeps (c : Chan) : Keeps s (writeChannel c s) :=
  ((((setReg_keeps s _ _).trans (setReg_keeps _ _ _)).trans (setReg_keeps _ _ _)).trans (setReg_keeps _ _ _)).trans
    (setReg_keeps _ _ _)

theorem writeShared_keeps : Keeps s (writeShared s) :=
  (((setReg_keeps s _ _).trans (setReg_keeps _ _ _)).trans (setReg_keeps _ _ _)).trans (setReg_keeps _ _ _)

/-- Where the tick stands is nothing the invariants speak of. -/
theorem setPlace_keeps (c : Chan) (p : Phase) : Keeps s { s with chan := c, phase := p } := .of_same

theorem nextChannel_keeps : Keeps s (nextChannel s) := by
  unfold nextChannel
  split <;> exact (writeChannel_keeps s _).trans (setPlace_keeps _ _ _)

theorem advance_keeps : Keeps s (advance s) := by
  unfold advance
  cases s.phase with
  | filter | waveExec => exact goto_keeps s _
  | sharedOut => exact (writeShared_keeps s).trans (setPlace_keeps _ _ _)
  | enter => exact (modCur_keeps ⟨id, id⟩).trans (goto_keeps _ _)
  | tickN => exact (tickN_keeps s).trans (goto_keeps _ _)
  | tick0 => exact tick0_keeps s
  | tickNEffects => exact (modCur_keeps (effectsWithoutEntry_keeps _)).trans (goto_keeps _ _)
  | pulseExec => exact afterPulse_keeps s
  | getNewNotes => exact (modCur_keeps (channelKeeps_pattrow fun _ => .inl rfl)).trans (goto_keeps _ _)
  | nextChannel => exact nextChannel_keeps s
  | idle | actions | noteStart | dispatch => exact .refl s

theorem microStep_keeps : Keeps s (microStep s) := by
  unfold microStep
  split_ifs
  · exact .refl s
  · split
    · exact advance_keeps s
    · exact .refl s
    · next f bytes hf =>
      split
      · next i hd =>
        have hperform : Keeps (beforeExec s) (perform i (beforeExec s)) :=
          perform_keeps i _ (fetched_underWaveCursor hf hd)
        exact ((beforeExec_keeps s).trans hperform).trans (afterExec_keeps _ _)
      · exact .refl s

theorem tickAt_keeps (n : Nat) : Keeps s (tickAt n s) := by
  induction n with
  | zero => exact goto_keeps s _
  | succ n ih => rw [tickAt_succ]; exact ih.trans (microStep_keeps _)

theorem runTick_keeps : Keeps s (runTick s) := runTick_eq_tickAt s ▸ tickAt_keeps s 37

/-! ## The host operations -/

theorem onChannel_keeps {f : Chan → State → State} (hf : ∀ c, Keeps s (f c s)) (ch : BitVec 2) :
    Keeps s (onChannel ch f s) := by
  unfold onChannel
  split
  · exact hf _
  · exact .refl s

theorem testNoteStart_keeps (n ins : Byte) (c : Chan) : Keeps s (testNoteStart n ins c s) := by
  unfold testNoteStart
  refine (leadIn_keeps s c _).trans (modCh_keeps (channelKeeps_instr fun hi => ?_))
  exact chosenInstr_ne_zero (leadIn_instr s c _ ▸ hi)

theorem testNote_keeps (n ins : Byte) (c : Chan) : Keeps s (testNote n ins c s) := by
  unfold testNote
  split
  · exact .refl s
  · exact testNoteStart_keeps s _ ins c
  · exact releaseNote_keeps s c

/-- The start row the host writes has 7 bits (R325). -/
theorem startRow_and_lt (row : Byte) : row &&& 0x7F#8 < 128#8 := tempoValue_lt row

end

/-- A host operation answers a next state between ticks only (R85). -/
theorem hostOp_next {s t u : State} (h : hostOp s t = .next u) : s.phase = .idle ∧ u = t := by
  unfold hostOp at h
  split_ifs at h with hp
  cases h
  exact ⟨hp, rfl⟩

theorem exec_decodeHost_keeps {s t : State} (h : HostCall) (ht : exec (decodeHost h) s = .next t) : Keeps s t := by
  cases h with
  | playRoutine => exact (hostOp_next ht).2 ▸ runTick_keeps s
  | setAction | setLoop => exact (hostOp_next ht).2 ▸ .of_same
  | playTestNote n ins => exact (hostOp_next ht).2 ▸ onChannel_keeps s (testNote_keeps s n ins) _
  | releaseNote => exact (hostOp_next ht).2 ▸ onChannel_keeps s (releaseNote_keeps s) _
  | setChannelActive => exact (hostOp_next ht).2 ▸ onChannel_keeps s (fun c => modCh_keeps ⟨id, id⟩) _
  | setStart _ _ row =>
    exact (hostOp_next ht).2 ▸
      onChannel_keeps s (fun c => modCh_keeps (channelKeeps_startRow fun _ => startRow_and_lt row)) _

/-! ## The step -/

/-- Between ticks a fetch takes the request at the head of the queue with it. -/
theorem beforeExec_of_idle {s : State} (h : s.phase = .idle) :
    beforeExec s = { s with requests := s.requests.tail } := by
  unfold beforeExec
  rw [h]

theorem reset_inv : State.reset.Inv := by
  have hchannel : Channel.reset.Inv := by decide
  exact ⟨hchannel, hchannel, hchannel, rfl, reset_mem_wf⟩

theorem resetBlock_waveDelayBounded (rest : List Request) (s : State) : (resetBlock rest s).WaveDelayBounded :=
  ⟨.inl rfl, .inl rfl, .inl rfl⟩

/-- A reset leaves legal registers and keeps the song memories. -/
theorem resetBlock_inv (rest : List Request) {s : State} (h : s.Inv) : (resetBlock rest s).Inv := by
  obtain ⟨h0, h1, h2, hf, -⟩ := reset_inv
  obtain ⟨-, -, -, -, hm⟩ := h
  exact ⟨h0, h1, h2, hf, hm⟩

/-- Every step is a reset, a host store to a cell that exists, or a change that keeps the invariants. -/
theorem step_keeps_cases {s t : State} (h : step s = .next t) :
    (∃ rest, s.requests = .reset :: rest ∧ t = resetBlock rest s) ∨
    (∃ a v rest, s.phase = .idle ∧ s.requests = .store a v :: rest ∧ Memory.mapped a = true ∧
      t = { s with requests := rest, mem := Memory.write s.mem a v }) ∨
    Keeps s t := by
  rcases step_cases h with hreset | ⟨_, rfl⟩ | ⟨_, _, htick⟩ | ⟨c, rest, _, _, hcall⟩ | hstore
  · exact .inl hreset
  · exact .inr (.inr (microStep_keeps s))
  · exact .inr (.inr (exec_decodeHost_keeps .playRoutine htick))
  · exact .inr (.inr (.trans (t := { s with requests := rest }) .of_same (exec_decodeHost_keeps c hcall)))
  · exact .inr (.inl hstore)

theorem store_keeps_inv {s : State} {a : Nat} (v : Byte) (rest : List Request) (hmap : Memory.mapped a = true)
    (h : s.Inv) : { s with requests := rest, mem := Memory.write s.mem a v }.Inv := by
  obtain ⟨h0, h1, h2, hf, hm⟩ := h
  exact ⟨h0, h1, h2, hf, write_keeps_wf v hmap hm⟩

theorem wavetime_le_of_delayBounded {s : State} {x : Channel} (h : x.DelayBounded s) : x.wavetime ≤ 0x0F#8 := by
  rcases h with h0 | ⟨_, hle, hbound⟩
  · rw [h0]; decide
  · exact BitVec.le_trans hle hbound

/-! ## The statements -/

/-- Settles O9: every step is a reset, a store to a cell that exists, or one of the changes that keep the invariants. -/
theorem stepKeepsInvariant : Obligations.StepKeepsInvariant := by
  intro s t h
  rcases step_keeps_cases h with ⟨rest, _, rfl⟩ | ⟨a, v, rest, _, _, hmap, rfl⟩ | hkeeps
  · exact ⟨resetBlock_inv rest, rfl⟩
  · exact ⟨store_keeps_inv v rest hmap, rfl⟩
  · exact ⟨hkeeps.inv, hkeeps.freqRom⟩

/-- Settles O10: by the same cases, the store being the one that is excluded. -/
theorem stepKeepsWaveDelayBound : Obligations.StepKeepsWaveDelayBound := by
  intro s hs
  refine ⟨fun c => wavetime_le_of_delayBounded ((waveDelayBounded_iff s).mp hs c), fun t hedit h => ?_⟩
  rcases step_keeps_cases h with ⟨rest, _, rfl⟩ | ⟨a, v, rest, hidle, hreq, _, _⟩ | hkeeps
  · exact resetBlock_waveDelayBounded rest s
  · exact absurd ⟨hidle, a, v, rest, hreq⟩ hedit
  · exact hkeeps.waveDelayBounded hs

/-- Settles O8. -/
theorem resetHasInvariant : Obligations.ResetHasInvariant := ⟨reset_inv, resetBlock_waveDelayBounded [] State.reset⟩

/-- Settles O6, by the request at the head of the queue. -/
theorem stepServesHostRequests : Obligations.StepServesHostRequests := by
  intro s
  refine ⟨fun rest hreq => ?_, fun hidle hreq => ?_, fun h rest hidle hreq => ?_, fun a v rest hidle hreq => ?_⟩
  · simp only [step, hreq, resetBlock]
  · have hsame : beforeExec s = s := (beforeExec_of_idle hidle).trans (by rw [hreq, List.tail_nil, ← hreq])
    simp only [step, hreq, fetch, fetchHost, hidle, hsame, decodeHost]
  · simp only [step, hreq, fetch, fetchHost, hidle, beforeExec_of_idle hidle, List.tail_cons]
  · simp only [step, hreq, fetch, fetchHost, hidle, serveOrAdvance, storeCell]

/-- Settles O13: each register is the one `State.reset` holds, and the memories are the argument's own. -/
theorem resetLoadsTheTable : Obligations.ResetLoadsTheTable := by
  intro s rest
  refine ⟨fun c => by cases c <;> rfl, rfl, rfl, rfl, rfl, rfl, rfl, rfl, rfl, rfl, rfl, rfl, rfl, fun a => ?_, rfl, rfl,
    rfl, rfl⟩
  simp only [resetBlock, State.regAt, State.reset, Vector.getElem_replicate]

end Sys2Proof.Machine
end

section
/-! SUPPORT. What a step at a fetched word runs, and that the host is refused inside a tick (R85). -/

namespace Sys2Proof.Machine

/-! ## The step at a fetched word -/

theorem onNext_id (o : Host.Outcome State Fault Refusal) : onNext (fun s => s) o = o := by
  cases o <;> rfl

theorem step_of_fetch_word {s : State} {f : Format} {bytes : List Byte} {i : Instr} (hr : s.resetWaiting = false)
    (hf : fetch s = .word f bytes) (hd : decode f bytes = .ok i) :
    step s = onNext (afterExec s.phase) (exec i (beforeExec s)) := by
  unfold step
  split
  · next rest hreq => simp [State.resetWaiting, hreq] at hr
  · simp only [hf, hd]

/-- The walkers' phases add nothing to the instruction under their cursor: it says itself where the tick goes on
(R238, R239, R156). -/
theorem walker_adds_nothing {s : State} (h : s.phase = .filter ∨ s.phase = .waveExec ∨ s.phase = .pulseExec) :
    beforeExec s = s ∧ afterExec s.phase = fun t => t := by
  unfold beforeExec
  rcases h with h | h | h <;> rw [h] <;> exact ⟨rfl, rfl⟩

/-- Settles O5: the reset that a step takes first is not waiting, so the step runs the word it fetches. -/
theorem stepRunsFetchedInstruction : Obligations.StepRunsFetchedInstruction := by
  intro s f bytes i hr hf hd
  have hstep := step_of_fetch_word hr hf hd
  refine ⟨hstep, fun hwalker => ?_⟩
  obtain ⟨hbefore, hafter⟩ := walker_adds_nothing hwalker
  rw [hstep, hbefore, hafter, onNext_id]

/-! ## Host operations inside a tick -/

theorem hostOp_refused {s : State} (t : State) (h : s.phase ≠ .idle) : hostOp s t = .refused .duringTick := if_neg h

/-- Settles O60: the instructions without a word are the host operations, and each is a `hostOp`. -/
theorem hostOperationsAreRefusedDuringATick : Obligations.HostOperationsAreRefusedDuringATick := by
  intro s i hphase hnone
  cases i with
  | hTick | hAction | hTestnote | hRelease | hActive | hSetstart | hSetloop => exact hostOp_refused _ hphase
  | _ => cases hnone

end Sys2Proof.Machine
end

section
/-! SUPPORT. Reading and writing the song memories in their canonical form (assumption logs 1 and 4). -/

namespace Sys2Proof.Machine

theorem wfFrom_cons_iff {lo a : Nat} {v : Byte} {m : Memory} :
    Memory.wfFrom lo ((a, v) :: m) = true ↔
      lo ≤ a ∧ v ≠ Memory.unlisted ∧ Memory.mapped a = true ∧ Memory.wfFrom (a + 1) m = true := by
  simp only [Memory.wfFrom, Bool.and_eq_true, decide_eq_true_eq, bne_iff_ne, and_assoc]

theorem read_cons (a : Nat) (v : Byte) (m : Memory) (b : Nat) :
    Memory.read ((a, v) :: m) b = if a = b then v else Memory.read m b := rfl

theorem read_cons_self (a : Nat) (v : Byte) (m : Memory) : Memory.read ((a, v) :: m) a = v := if_pos rfl

theorem read_cons_ne {a b : Nat} (v : Byte) (m : Memory) (h : a ≠ b) :
    Memory.read ((a, v) :: m) b = Memory.read m b := if_neg h

/-- Below its lowest address a memory lists nothing. -/
theorem read_of_lt {lo a : Nat} {m : Memory} (h : Memory.wfFrom lo m = true) (ha : a < lo) :
    Memory.read m a = Memory.unlisted := by
  induction m generalizing lo with
  | nil => rfl
  | cons p m ih =>
    obtain ⟨hlo, -, -, hm⟩ := wfFrom_cons_iff.mp h
    rw [read_cons_ne _ _ (by omega)]
    exact ih hm (by omega)

/-- A write takes one of these forms at the head of the list (assumption log 1: the addresses rise). -/
theorem write_cons (c : Nat) (x : Byte) (m : Memory) (a : Nat) (v : Byte) :
    (a < c ∧ v = Memory.unlisted ∧ Memory.write ((c, x) :: m) a v = (c, x) :: m) ∨
    (a < c ∧ Memory.write ((c, x) :: m) a v = (a, v) :: (c, x) :: m) ∨
    (a = c ∧ v = Memory.unlisted ∧ Memory.write ((c, x) :: m) a v = m) ∨
    (a = c ∧ Memory.write ((c, x) :: m) a v = (a, v) :: m) ∨
    (c < a ∧ Memory.write ((c, x) :: m) a v = (c, x) :: Memory.write m a v) := by
  rw [Memory.write]
  split_ifs with hlt hv heq hv
  · exact .inl ⟨hlt, hv, rfl⟩
  · exact .inr (.inl ⟨hlt, rfl⟩)
  · exact .inr (.inr (.inl ⟨heq, hv, rfl⟩))
  · exact .inr (.inr (.inr (.inl ⟨heq, rfl⟩)))
  · exact .inr (.inr (.inr (.inr ⟨by omega, rfl⟩)))

theorem read_write_self {lo : Nat} {m : Memory} (h : Memory.wfFrom lo m = true) (a : Nat) (v : Byte) :
    Memory.read (Memory.write m a v) a = v := by
  induction m generalizing lo with
  | nil =>
    unfold Memory.write
    split_ifs with hv
    · exact hv.symm
    · exact read_cons_self a v []
  | cons p m ih =>
    obtain ⟨c, x⟩ := p
    obtain ⟨-, -, -, hm⟩ := wfFrom_cons_iff.mp h
    rcases write_cons c x m a v with ⟨hlt, hv, he⟩ | ⟨_, he⟩ | ⟨heq, hv, he⟩ | ⟨_, he⟩ | ⟨hgt, he⟩ <;> rw [he]
    · rw [read_cons_ne _ _ (by omega), read_of_lt hm (by omega), hv]
    · exact read_cons_self a v _
    · rw [read_of_lt hm (by omega), hv]
    · exact read_cons_self a v m
    · rw [read_cons_ne _ _ (by omega), ih hm]

theorem read_write_ne (m : Memory) {a b : Nat} (v : Byte) (h : b ≠ a) :
    Memory.read (Memory.write m a v) b = Memory.read m b := by
  induction m with
  | nil =>
    unfold Memory.write
    split_ifs
    · rfl
    · exact read_cons_ne v [] h.symm
  | cons p m ih =>
    obtain ⟨c, x⟩ := p
    rcases write_cons c x m a v with ⟨_, _, he⟩ | ⟨_, he⟩ | ⟨heq, _, he⟩ | ⟨heq, he⟩ | ⟨_, he⟩ <;> rw [he]
    · exact read_cons_ne v _ h.symm
    · exact (read_cons_ne x m (heq ▸ h.symm)).symm
    · rw [read_cons_ne v m h.symm, read_cons_ne x m (heq ▸ h.symm)]
    · rw [read_cons, read_cons, ih]

/-- A memory lists the cell it lists first, and no memory of higher addresses reads like it there. -/
theorem read_head_ne_of_lt {lo lo' a : Nat} {v : Byte} {m m' : Memory}
    (h : Memory.wfFrom lo ((a, v) :: m) = true) (h' : Memory.wfFrom lo' m' = true) (ha : a < lo') :
    Memory.read ((a, v) :: m) a ≠ Memory.read m' a := by
  obtain ⟨-, hv, -, -⟩ := wfFrom_cons_iff.mp h
  rwa [read_cons_self, read_of_lt h' ha]

/-- A memory is in canonical form from its lowest address on. -/
theorem wfFrom_head {lo a : Nat} {v : Byte} {m : Memory} (h : Memory.wfFrom lo ((a, v) :: m) = true) :
    Memory.wfFrom a ((a, v) :: m) = true := by
  obtain ⟨-, hrest⟩ := wfFrom_cons_iff.mp h
  exact wfFrom_cons_iff.mpr ⟨le_rfl, hrest⟩

/-- Memories in canonical form that read alike list the same cells: the lowest addresses agree, since each is listed
in one memory and below the other otherwise, and then the tails read alike. -/
theorem eq_of_read_eq {lo lo' : Nat} {m m' : Memory} (h : Memory.wfFrom lo m = true)
    (h' : Memory.wfFrom lo' m' = true) (hread : ∀ a, Memory.read m a = Memory.read m' a) : m = m' := by
  induction m generalizing lo lo' m' with
  | nil =>
    cases m' with
    | nil => rfl
    | cons q m' => exact absurd (hread q.1).symm (read_head_ne_of_lt (m' := []) (lo' := q.1 + 1) h' rfl (by omega))
  | cons p m ih =>
    obtain ⟨a, v⟩ := p
    cases m' with
    | nil => exact absurd (hread a) (read_head_ne_of_lt (lo' := a + 1) h rfl (by omega))
    | cons q m' =>
      obtain ⟨b, x⟩ := q
      rcases Nat.lt_trichotomy a b with hlt | rfl | hgt
      · exact absurd (hread a) (read_head_ne_of_lt h (wfFrom_head h') hlt)
      · obtain ⟨-, -, -, hm⟩ := wfFrom_cons_iff.mp h
        obtain ⟨-, -, -, hm'⟩ := wfFrom_cons_iff.mp h'
        have hv : v = x := by simpa only [read_cons_self] using hread a
        have htail : ∀ c, Memory.read m c = Memory.read m' c := by
          intro c
          by_cases hc : a = c
          · rw [read_of_lt hm (by omega), read_of_lt hm' (by omega)]
          · simpa only [read_cons_ne _ _ hc] using hread c
        rw [hv, ih hm hm' htail]
      · exact absurd (hread b).symm (read_head_ne_of_lt h' (wfFrom_head h) hgt)

/-- Settles O11. -/
theorem memoryWriteIsExact : Obligations.MemoryWriteIsExact := by
  refine ⟨fun m a b v hm => ?_, fun m m' hm hm' hread => eq_of_read_eq hm hm' hread⟩
  split_ifs with h
  · exact h ▸ read_write_self hm b v
  · exact read_write_ne m v h

end Sys2Proof.Machine
end

section
/-! SUPPORT. The model's address map (assumption log 1) read backwards: the cell at an address. -/

namespace Sys2Proof.Machine

/-! ## The names an index stands for -/

def tableAt : Nat → Table
  | 0 => .wave
  | 1 => .pulse
  | 2 => .filter
  | _ => .speed

def chanAt : Nat → Chan
  | 0 => .c0
  | 1 => .c1
  | _ => .c2

def instrFieldAt : Nat → InstrField
  | 0 => .ad
  | 1 => .sr
  | 2 => .ptrWave
  | 3 => .ptrPulse
  | 4 => .ptrFilter
  | 5 => .ptrSpeed
  | 6 => .vibdelay
  | 7 => .gatetimer
  | _ => .firstwave

def rowFieldAt : Nat → RowField
  | 0 => .note
  | 1 => .instr
  | 2 => .cmd
  | _ => .data

theorem tableAt_idx (k : Table) : tableAt k.idx = k := by cases k <;> rfl

theorem chanAt_idx (c : Chan) : chanAt c.idx = c := by cases c <;> rfl

theorem instrFieldAt_idx (f : InstrField) : instrFieldAt f.idx = f := by cases f <;> rfl

theorem rowFieldAt_idx (f : RowField) : rowFieldAt f.idx = f := by cases f <;> rfl

theorem idx_tableAt {n : Nat} (h : n < 4) : (tableAt n).idx = n := by interval_cases n <;> rfl

theorem idx_chanAt {n : Nat} (h : n < 3) : (chanAt n).idx = n := by interval_cases n <;> rfl

theorem idx_instrFieldAt {n : Nat} (h : n < 9) : (instrFieldAt n).idx = n := by interval_cases n <;> rfl

theorem idx_rowFieldAt {n : Nat} (h : n < 4) : (rowFieldAt n).idx = n := by interval_cases n <;> rfl

theorem table_idx_lt (k : Table) : k.idx < 4 := by cases k <;> decide

theorem chan_idx_lt (c : Chan) : c.idx < 3 := by cases c <;> decide

theorem instrField_idx_lt (f : InstrField) : f.idx < 9 := by cases f <;> decide

theorem rowField_idx_lt (f : RowField) : f.idx < 4 := by cases f <;> decide

/-! ## The cell at an address -/

/-- The left or the right byte of a table entry, `n` bytes into the tables. -/
def tableCellAt (n : Nat) : SongCell :=
  if n % 512 < 256 then .left (tableAt (n / 512)) (BitVec.ofNat 8 (n % 256 + 1))
  else .right (tableAt (n / 512)) (BitVec.ofNat 8 (n % 256 + 1))

/-- The transpose or the pattern byte of an order row, `n` bytes into the order lists. -/
def orderCellAt (n : Nat) : SongCell :=
  if n % 2 = 0 then .orderTrans (chanAt (n / 512)) (BitVec.ofNat 8 (n % 512 / 2))
  else .orderPatt (chanAt (n / 512)) (BitVec.ofNat 8 (n % 512 / 2))

/-- The cell at an address: the inverse of `SongCell.addr`, space by space (R72 to R75). -/
def cellAt (a : Nat) : SongCell :=
  if a < 0x400 then .instr (BitVec.ofNat 6 (a / 16)) (instrFieldAt (a % 16))
  else if a < 0xC00 then tableCellAt (a - 0x400)
  else if a < 0x1200 then orderCellAt (a - 0xC00)
  else if a = 0x1200 then .songLen
  else if a = 0x1201 then .songLoop
  else if a < 0x20000 then .pattLen (BitVec.ofNat 8 (a - 0x1300))
  else .patt (BitVec.ofNat 8 ((a - 0x20000) / 512)) (BitVec.ofNat 8 (a % 512 / 4)) (rowFieldAt (a % 4))

theorem toNat_pred {p : Byte} (h : p ≠ 0x00#8) : (p - 1#8).toNat + 1 = p.toNat := by bv_omega

theorem toNat_lt_255 {i : Byte} (h : i ≠ 0xFF#8) : i.toNat < 255 := by bv_omega

theorem ofNat_of_toNat {w n : Nat} {x : BitVec w} (h : n = x.toNat) : BitVec.ofNat w n = x := by
  rw [h, BitVec.ofNat_toNat, BitVec.setWidth_eq]

theorem cellAt_instr (i : BitVec 6) (f : InstrField) : cellAt (instrAddr i f) = .instr i f := by
  have hi := i.isLt
  have hf := instrField_idx_lt f
  have hslot : (16 * i.toNat + f.idx) / 16 = i.toNat := by omega
  have hfield : (16 * i.toNat + f.idx) % 16 = f.idx := by omega
  unfold cellAt instrAddr
  rw [if_pos (by omega), ofNat_of_toNat hslot, hfield, instrFieldAt_idx]

theorem tableCellAt_left (k : Table) {p : Byte} {n : Nat} (hn : n + 1 = p.toNat) :
    tableCellAt (512 * k.idx + n) = .left k p := by
  have hp := p.isLt
  have hkind : (512 * k.idx + n) / 512 = k.idx := by omega
  have hentry : (512 * k.idx + n) % 256 + 1 = p.toNat := by omega
  unfold tableCellAt
  rw [if_pos (by omega), hkind, tableAt_idx, ofNat_of_toNat hentry]

theorem tableCellAt_right (k : Table) {p : Byte} {n : Nat} (hn : n + 1 = p.toNat) :
    tableCellAt (512 * k.idx + 256 + n) = .right k p := by
  have hp := p.isLt
  have hkind : (512 * k.idx + 256 + n) / 512 = k.idx := by omega
  have hentry : (512 * k.idx + 256 + n) % 256 + 1 = p.toNat := by omega
  unfold tableCellAt
  rw [if_neg (by omega), hkind, tableAt_idx, ofNat_of_toNat hentry]

theorem orderCellAt_trans (c : Chan) {i : Byte} : orderCellAt (512 * c.idx + 2 * i.toNat) = .orderTrans c i := by
  have hi := i.isLt
  have hchan : (512 * c.idx + 2 * i.toNat) / 512 = c.idx := by omega
  have hrow : (512 * c.idx + 2 * i.toNat) % 512 / 2 = i.toNat := by omega
  unfold orderCellAt
  rw [if_pos (by omega), hchan, chanAt_idx, ofNat_of_toNat hrow]

theorem orderCellAt_patt (c : Chan) {i : Byte} : orderCellAt (512 * c.idx + 2 * i.toNat + 1) = .orderPatt c i := by
  have hi := i.isLt
  have hchan : (512 * c.idx + 2 * i.toNat + 1) / 512 = c.idx := by omega
  have hrow : (512 * c.idx + 2 * i.toNat + 1) % 512 / 2 = i.toNat := by omega
  unfold orderCellAt
  rw [if_neg (by omega), hchan, chanAt_idx, ofNat_of_toNat hrow]

theorem cellAt_table {n : Nat} (hn : n < 0x800) : cellAt (0x400 + n) = tableCellAt n := by
  unfold cellAt
  rw [if_neg (by omega), if_pos (by omega), Nat.add_sub_cancel_left]

theorem cellAt_order {n : Nat} (hn : n < 0x600) : cellAt (0xC00 + n) = orderCellAt n := by
  unfold cellAt
  rw [if_neg (by omega), if_neg (by omega), if_pos (by omega), Nat.add_sub_cancel_left]

theorem cellAt_pattLen (p : Byte) : cellAt (pattLenAddr p) = .pattLen p := by
  have hp := p.isLt
  have hpatt : 0x1300 + p.toNat - 0x1300 = p.toNat := by omega
  unfold cellAt pattLenAddr
  rw [if_neg (by omega), if_neg (by omega), if_neg (by omega), if_neg (by omega), if_neg (by omega), if_pos (by omega),
    ofNat_of_toNat hpatt]

theorem cellAt_patt (p : Byte) {r : Byte} (f : RowField) (hr : r < 128#8) :
    cellAt (pattAddr p r f) = .patt p r f := by
  have hlt : r.toNat < 128 := hr
  have hf := rowField_idx_lt f
  have hpatt : (0x20000 + 512 * p.toNat + 4 * r.toNat + f.idx - 0x20000) / 512 = p.toNat := by omega
  have hrow : (0x20000 + 512 * p.toNat + 4 * r.toNat + f.idx) % 512 / 4 = r.toNat := by omega
  have hfield : (0x20000 + 512 * p.toNat + 4 * r.toNat + f.idx) % 4 = f.idx := by omega
  unfold cellAt pattAddr
  rw [if_neg (by omega), if_neg (by omega), if_neg (by omega), if_neg (by omega), if_neg (by omega), if_neg (by omega),
    ofNat_of_toNat hpatt, ofNat_of_toNat hrow, hfield, rowFieldAt_idx]

/-- The address map has an inverse on the cells in range, so no two of them share an address. -/
theorem cellAt_addr {c : SongCell} (h : c.inRange = true) : cellAt c.addr = c := by
  cases c with
  | instr i f => exact cellAt_instr i f
  | left k p =>
    have hk := table_idx_lt k
    have hpred := toNat_pred (bne_iff_ne.mp h)
    have haddr : leftAddr k p = 0x400 + (512 * k.idx + (p - 1#8).toNat) := by unfold leftAddr; omega
    rw [SongCell.addr, haddr, cellAt_table (by omega), tableCellAt_left k hpred]
  | right k p =>
    have hk := table_idx_lt k
    have hpred := toNat_pred (bne_iff_ne.mp h)
    have haddr : rightAddr k p = 0x400 + (512 * k.idx + 256 + (p - 1#8).toNat) := by unfold rightAddr; omega
    rw [SongCell.addr, haddr, cellAt_table (by omega), tableCellAt_right k hpred]
  | orderTrans c i =>
    have hc := chan_idx_lt c
    have haddr : orderTransAddr c i = 0xC00 + (512 * c.idx + 2 * i.toNat) := by unfold orderTransAddr; omega
    rw [SongCell.addr, haddr, cellAt_order (by omega), orderCellAt_trans]
  | orderPatt c i =>
    have hc := chan_idx_lt c
    have haddr : orderPattAddr c i = 0xC00 + (512 * c.idx + 2 * i.toNat + 1) := by unfold orderPattAddr; omega
    rw [SongCell.addr, haddr, cellAt_order (by omega), orderCellAt_patt]
  | songLen | songLoop => rfl
  | pattLen p => exact cellAt_pattLen p
  | patt p r f =>
    simp only [SongCell.inRange, Bool.and_eq_true, decide_eq_true_eq] at h
    exact cellAt_patt p f h.2

/-! ## The mapped addresses -/

theorem mapped_iff (a : Nat) :
    Memory.mapped a = true ↔
      (a < 0x400 ∧ a % 16 < 9) ∨ (0x400 ≤ a ∧ a < 0xC00 ∧ a % 256 < 255) ∨
      (0xC00 ≤ a ∧ a < 0x1200 ∧ a % 512 < 510) ∨ (0x1200 ≤ a ∧ a < 0x1202) ∨
      (0x1300 ≤ a ∧ a < 0x1300 + 208) ∨ (0x20000 ≤ a ∧ a < 0x20000 + 208 * 512) := by
  simp only [Memory.mapped, Bool.or_eq_true, Bool.and_eq_true, decide_eq_true_eq, or_assoc, and_assoc]

theorem mapped_addr {c : SongCell} (h : c.inRange = true) : Memory.mapped c.addr = true := by
  rw [mapped_iff]
  cases c with
  | instr i f =>
    have hi := i.isLt
    have hf := instrField_idx_lt f
    simp only [SongCell.addr, instrAddr]
    omega
  | left k p | right k p =>
    have hk := table_idx_lt k
    have hpred := toNat_pred (bne_iff_ne.mp h)
    have hp := p.isLt
    simp only [SongCell.addr, leftAddr, rightAddr]
    omega
  | orderTrans c i | orderPatt c i =>
    have hc := chan_idx_lt c
    have hi := toNat_lt_255 (bne_iff_ne.mp h)
    simp only [SongCell.addr, orderTransAddr, orderPattAddr]
    omega
  | songLen | songLoop => decide
  | pattLen p =>
    have hp : p.toNat < 208 := of_decide_eq_true h
    simp only [SongCell.addr, pattLenAddr]
    omega
  | patt p r f =>
    simp only [SongCell.inRange, Bool.and_eq_true, decide_eq_true_eq] at h
    have hp : p.toNat < 208 := h.1
    have hr : r.toNat < 128 := h.2
    have hf := rowField_idx_lt f
    simp only [SongCell.addr, pattAddr]
    omega

/-! ## The cell of a mapped address -/

theorem toNat_ofNat_of_lt {w n : Nat} (h : n < 2 ^ w) : (BitVec.ofNat w n).toNat = n := by
  rw [BitVec.toNat_ofNat, Nat.mod_eq_of_lt h]

theorem ofNat_ne_of_toNat {w n : Nat} {x : BitVec w} (hn : n < 2 ^ w) (h : n ≠ x.toNat) : BitVec.ofNat w n ≠ x :=
  fun he => h (he ▸ (toNat_ofNat_of_lt hn).symm)

theorem instr_addr {a : Nat} (ha : a < 0x400) (hfield : a % 16 < 9) :
    (SongCell.instr (BitVec.ofNat 6 (a / 16)) (instrFieldAt (a % 16))).addr = a := by
  simp only [SongCell.addr, instrAddr, idx_instrFieldAt hfield]
  rw [toNat_ofNat_of_lt (by omega)]
  omega

theorem tableCellAt_spec {n : Nat} (hn : n < 0x800) (hentry : n % 256 < 255) :
    (tableCellAt n).inRange = true ∧ (tableCellAt n).addr = 0x400 + n := by
  have hkind : (tableAt (n / 512)).idx = n / 512 := idx_tableAt (by omega)
  have hval : (BitVec.ofNat 8 (n % 256 + 1)).toNat = n % 256 + 1 := toNat_ofNat_of_lt (by omega)
  have hne : BitVec.ofNat 8 (n % 256 + 1) ≠ 0x00#8 :=
    ofNat_ne_of_toNat (by omega) (Nat.succ_ne_zero _)
  have hpred := toNat_pred hne
  unfold tableCellAt
  split_ifs with hside
  · refine ⟨bne_iff_ne.mpr hne, ?_⟩
    simp only [SongCell.addr, leftAddr]
    omega
  · refine ⟨bne_iff_ne.mpr hne, ?_⟩
    simp only [SongCell.addr, rightAddr]
    omega

theorem orderCellAt_spec {n : Nat} (hn : n < 0x600) (hrow : n % 512 < 510) :
    (orderCellAt n).inRange = true ∧ (orderCellAt n).addr = 0xC00 + n := by
  have hchan : (chanAt (n / 512)).idx = n / 512 := idx_chanAt (by omega)
  have hval : (BitVec.ofNat 8 (n % 512 / 2)).toNat = n % 512 / 2 := toNat_ofNat_of_lt (by omega)
  have hne : BitVec.ofNat 8 (n % 512 / 2) ≠ 0xFF#8 :=
    ofNat_ne_of_toNat (by omega) (by simp only [BitVec.toNat_ofNat]; omega)
  unfold orderCellAt
  split_ifs with hbyte
  · refine ⟨bne_iff_ne.mpr hne, ?_⟩
    simp only [SongCell.addr, orderTransAddr]
    omega
  · refine ⟨bne_iff_ne.mpr hne, ?_⟩
    simp only [SongCell.addr, orderPattAddr]
    omega

theorem pattLen_spec {n : Nat} (hn : n < 208) :
    (SongCell.pattLen (BitVec.ofNat 8 n)).inRange = true ∧
      (SongCell.pattLen (BitVec.ofNat 8 n)).addr = 0x1300 + n := by
  have hval : (BitVec.ofNat 8 n).toNat = n := toNat_ofNat_of_lt (by omega)
  refine ⟨decide_eq_true ?_, ?_⟩
  · rwa [BitVec.lt_def, hval]
  · rw [SongCell.addr, pattLenAddr, hval]

theorem patt_spec {n : Nat} (hn : n < 208 * 512) :
    let c := SongCell.patt (BitVec.ofNat 8 (n / 512)) (BitVec.ofNat 8 (n % 512 / 4)) (rowFieldAt (n % 4))
    c.inRange = true ∧ c.addr = 0x20000 + n := by
  have hfield : (rowFieldAt (n % 4)).idx = n % 4 := idx_rowFieldAt (by omega)
  simp only [SongCell.inRange, Bool.and_eq_true, decide_eq_true_eq, SongCell.addr, pattAddr, BitVec.lt_def,
    BitVec.toNat_ofNat, hfield]
  omega

/-- Every mapped address is the address of a cell, space by space. -/
theorem exists_cell_of_mapped {a : Nat} (h : Memory.mapped a = true) :
    ∃ c : SongCell, c.inRange = true ∧ c.addr = a := by
  rcases (mapped_iff a).mp h with ⟨hlt, hfield⟩ | ⟨hlo, hlt, hentry⟩ | ⟨hlo, hlt, hrow⟩ | ⟨hlo, hlt⟩ | ⟨hlo, hlt⟩ |
    ⟨hlo, hlt⟩
  · exact ⟨_, rfl, instr_addr hlt hfield⟩
  · obtain ⟨n, rfl⟩ := Nat.exists_eq_add_of_le hlo
    exact ⟨_, tableCellAt_spec (by omega) (by omega)⟩
  · obtain ⟨n, rfl⟩ := Nat.exists_eq_add_of_le hlo
    exact ⟨_, orderCellAt_spec (by omega) (by omega)⟩
  · rcases (show a = songLenAddr ∨ a = songLoopAddr by unfold songLenAddr songLoopAddr; omega) with rfl | rfl
    · exact ⟨.songLen, rfl, rfl⟩
    · exact ⟨.songLoop, rfl, rfl⟩
  · obtain ⟨n, rfl⟩ := Nat.exists_eq_add_of_le hlo
    exact ⟨_, pattLen_spec (by omega)⟩
  · obtain ⟨n, rfl⟩ := Nat.exists_eq_add_of_le hlo
    exact ⟨_, patt_spec (by omega)⟩

/-- Settles O12: `cellAt` inverts the map on the cells in range, and each mapped address lies in one of the spaces. -/
theorem everyCellHasItsOwnAddress : Obligations.EveryCellHasItsOwnAddress := by
  refine ⟨fun c hc => mapped_addr hc, fun c d hc hd haddr => ?_, fun a ha => exists_cell_of_mapped ha⟩
  calc c = cellAt c.addr := (cellAt_addr hc).symm
    _ = cellAt d.addr := by rw [haddr]
    _ = d := cellAt_addr hd

end Sys2Proof.Machine
end

section
/-! SUPPORT. What a tick leaves of the host's own settings (R70, R71, R340), one lemma per operation of the model. -/

namespace Sys2Proof.Machine

/-! ## The relation between the states before and after a change -/

/-- A change of a channel keeps its mute flag, and its start position wherever `p` holds. -/
def SameSetup (p : Prop) (x y : Channel) : Prop :=
  y.mute = x.mute ∧ (p → y.startOrder = x.startOrder ∧ y.startRow = x.startRow)

/-- A change of the state keeps the requests, the pattern loop and every mute flag, keeps the start positions wherever
`p` holds (a Pause writes them, so `p` excludes it), and posts no Pause, since only the host does (R141, R321). `Keeps`
speaks of the song memories and the frequency ROM. -/
structure KeepsSetup (p : Prop) (s t : State) : Prop where
  requests : t.requests = s.requests
  loopPattern : t.loopPattern = s.loopPattern
  channels : ∀ c, SameSetup p (s.ch c) (t.ch c)
  noPause : s.action ≠ 2#2 → t.action ≠ 2#2

section
variable {p : Prop}

theorem SameSetup.of_same {x y : Channel} (hm : y.mute = x.mute := by rfl) (ho : y.startOrder = x.startOrder := by rfl)
    (hr : y.startRow = x.startRow := by rfl) : SameSetup p x y := ⟨hm, fun _ => ⟨ho, hr⟩⟩

theorem SameSetup.trans {x y z : Channel} (h : SameSetup p x y) (k : SameSetup p y z) : SameSetup p x z := by
  obtain ⟨hm, hs⟩ := h
  obtain ⟨km, ks⟩ := k
  exact ⟨km.trans hm, fun hp => ⟨(ks hp).1.trans (hs hp).1, (ks hp).2.trans (hs hp).2⟩⟩

theorem KeepsSetup.trans {s t u : State} (h : KeepsSetup p s t) (k : KeepsSetup p t u) : KeepsSetup p s u where
  requests := k.requests.trans h.requests
  loopPattern := k.loopPattern.trans h.loopPattern
  channels c := (h.channels c).trans (k.channels c)
  noPause := k.noPause ∘ h.noPause

theorem KeepsSetup.imp {q : Prop} {s t : State} (h : KeepsSetup q s t) (hpq : p → q) : KeepsSetup p s t where
  requests := h.requests
  loopPattern := h.loopPattern
  channels c := ⟨(h.channels c).1, fun hp => (h.channels c).2 (hpq hp)⟩
  noPause := h.noPause

/-- A change that writes no channel register, request, pattern loop or mailbox. -/
theorem KeepsSetup.of_same {s t : State} (h0 : t.ch0 = s.ch0 := by rfl) (h1 : t.ch1 = s.ch1 := by rfl)
    (h2 : t.ch2 = s.ch2 := by rfl) (hq : t.requests = s.requests := by rfl)
    (hl : t.loopPattern = s.loopPattern := by rfl) (ha : s.action ≠ 2#2 → t.action ≠ 2#2 := by exact id) :
    KeepsSetup p s t where
  requests := hq
  loopPattern := hl
  channels
    | .c0 => by simp only [State.ch, h0, SameSetup.of_same]
    | .c1 => by simp only [State.ch, h1, SameSetup.of_same]
    | .c2 => by simp only [State.ch, h2, SameSetup.of_same]
  noPause := ha

theorem KeepsSetup.refl (s : State) : KeepsSetup p s s := .of_same

theorem KeepsSetup.ite {s t u : State} {q : Prop} [Decidable q] (ht : KeepsSetup p s t) (hu : KeepsSetup p s u) :
    KeepsSetup p s (if q then t else u) := by
  split_ifs
  · exact ht
  · exact hu

theorem modCh_setup {s : State} {c : Chan} {f : Channel → Channel} (h : SameSetup p (s.ch c) (f (s.ch c))) :
    KeepsSetup p s (s.modCh c f) where
  requests := modCh_requests s c f
  loopPattern := modCh_loopPattern s c f
  channels d := by
    rw [modCh_ch]
    split_ifs with hd
    · exact hd ▸ h
    · exact .of_same
  noPause := by rw [modCh_action]; exact id

theorem modCur_setup {s : State} {f : Channel → Channel} (h : SameSetup p s.cur (f s.cur)) :
    KeepsSetup p s (s.modCur f) := modCh_setup h

/-- An instruction that is an update of the channel being stepped and nothing else. -/
theorem settled_modCur_setup {s : State} {f : Channel → Channel} (h : SameSetup p s.cur (f s.cur)) :
    KeepsSetup p s (settled s (.next (s.modCur f))) := modCur_setup h

/-! ## Changes of one channel -/

section
variable {x : Channel}

theorem approachTarget_setup (rom : Vector Word 96) (d : Word) : SameSetup p x (approachTarget rom d x) := by
  have hbelow : ∀ v y, SameSetup p y (approachFromBelow v d y) := by
    intro v y; unfold approachFromBelow; split_ifs <;> exact .of_same
  have habove : ∀ v y, SameSetup p y (approachFromAbove v d y) := by
    intro v y; unfold approachFromAbove; split_ifs <;> exact .of_same
  exact (hbelow _ x).trans (habove _ _)

/-- A pulse entry's own part, then its modulation step (R280). -/
theorem pulseEntry_setup (r : Byte) {f : Channel → Channel} (hf : SameSetup p x (f x)) :
    SameSetup p x (pulseModulate r (pulseStart f x)) := by
  have hstep : ∀ y, SameSetup p y (pulseModulate r y) := by
    intro y
    rcases pulseModulate_cases r y with ⟨_, h⟩ | ⟨_, _, h⟩ | ⟨_, _, h⟩ <;> rw [h] <;> exact .of_same
  refine .trans ?_ (hstep _)
  unfold pulseStart
  split_ifs
  · exact hf
  · exact .of_same

theorem effectsWithoutEntry_setup (rom : Vector Word 96) : SameSetup p x (effectsWithoutEntry rom x) := by
  unfold effectsWithoutEntry; split_ifs <;> exact .of_same

end

/-! ## The shared operations -/

variable (s : State)

theorem goto_setup (q : Phase) : KeepsSetup p s (s.goto q) := .of_same

theorem setReg_setup (a : Fin 25) (v : Byte) : KeepsSetup p s (s.setReg a v) := .of_same

theorem setEnvelope_setup (c : Chan) (ad sr : Byte) : KeepsSetup p s (setEnvelope c ad sr s) := .of_same

/-- A fatal condition posts a Stop, not a Pause (R331). -/
theorem raiseFatal_setup (k : Cause) : KeepsSetup p s (raiseFatal k s) :=
  .of_same (ha := fun _ => (by decide : (3#2 : BitVec 2) ≠ 2#2))

theorem raiseFatalIf_setup (b : Bool) (k : Cause) : KeepsSetup p s (raiseFatalIf b k s) := by
  rcases raiseFatalIf_cases b k s with ⟨_, h⟩ | ⟨_, h⟩ <;> rw [h]
  · exact raiseFatal_setup s k
  · exact .refl s

theorem release_setup (c : Chan) : KeepsSetup p s (release c s) :=
  (modCh_setup .of_same).trans (setEnvelope_setup _ c _ _)

theorem sequencer_setup (c : Chan) : KeepsSetup p s (sequencer c s) :=
  (modCh_setup .of_same).trans (raiseFatalIf_setup _ _ _)

theorem loadWavePtr_setup (c : Chan) (q : Byte) : KeepsSetup p s (loadWavePtr c q s) :=
  (modCh_setup .of_same).trans (raiseFatalIf_setup _ _ _)

theorem loadPulsePtr_setup (c : Chan) (q : Byte) : KeepsSetup p s (loadPulsePtr c q s) :=
  (modCh_setup .of_same).trans (raiseFatalIf_setup _ _ _)

theorem loadFilterPtr_setup (q : Byte) : KeepsSetup p s (loadFilterPtr q s) :=
  KeepsSetup.trans (t := { s with filtPtr := q, filtTime := 0x00#8 }) .of_same (raiseFatalIf_setup _ _ _)

theorem setFilterControl_setup (d : Byte) : KeepsSetup p s (setFilterControl d s) := .of_same

theorem setMasterVolume_setup (d : Byte) : KeepsSetup p s (setMasterVolume d s) := by
  rcases setMasterVolume_cases d s with ⟨_, h⟩ | ⟨_, h⟩ <;> rw [h] <;> exact .of_same

theorem setAllTempos_setup (v : Byte) : KeepsSetup p s (setAllTempos v s) where
  requests := rfl
  loopPattern := rfl
  channels c := by rw [setAllTempos_ch]; exact .of_same
  noPause := id

/-! ## Notes and commands -/

theorem leadIn_setup (c : Chan) (g : Byte) : KeepsSetup p s (leadIn c g s) := by
  unfold leadIn
  split_ifs
  · exact .refl s
  · exact modCh_setup .of_same
  · exact (modCh_setup .of_same).trans (setEnvelope_setup _ c _ _)

theorem nNote_setup (n : Byte) : KeepsSetup p s (perform (.nNote n) s) :=
  (modCur_setup (f := fun x => { x with newnote := n + x.trans, nnPend := true }) .of_same).trans
    (.ite (.refl _) (leadIn_setup _ _ _))

theorem fnk_setup (d : Byte) : KeepsSetup p s (perform (.fnk d) s) :=
  KeepsSetup.trans (.ite (.refl s) .of_same) (setAllTempos_setup _ _)

theorem tmp_setup (d : Byte) : KeepsSetup p s (perform (.tmp d) s) :=
  .ite (modCur_setup .of_same) (setAllTempos_setup s _)

/-! ## The walkers -/

theorem waveAdvance_setup : KeepsSetup p s (waveAdvance s) := modCur_setup .of_same

theorem applyNote_setup (n : BitVec 7) : KeepsSetup p s (applyNote n s) :=
  (modCur_setup .of_same).trans (goto_setup _ _)

/-- A passed entry and its note adjustment (R236, R238). -/
theorem wavePass_setup (r : Byte) : KeepsSetup p s (noteAdjust r (waveAdvance s)) := by
  refine (waveAdvance_setup s).trans ?_
  rcases noteAdjust_cases r (waveAdvance s) with ⟨_, h⟩ | ⟨_, h⟩ | ⟨_, h⟩ <;> rw [h]
  · exact goto_setup _ _
  · exact applyNote_setup _ _
  · exact applyNote_setup _ _

theorem wavePassCommand_setup : KeepsSetup p s (wavePassCommand s) := (waveAdvance_setup s).trans (goto_setup _ _)

theorem tonePorta_setup (c : Chan) (q : Byte) : KeepsSetup p s (tonePorta c q s) := by
  unfold tonePorta
  split_ifs
  · exact modCh_setup .of_same
  · exact modCh_setup (approachTarget_setup _ _)

theorem afterPulse_setup : KeepsSetup p s (afterPulse s) := goto_setup s _

theorem pJump_setup (r : Byte) : KeepsSetup p s (perform (.pJump r) s) :=
  ((modCur_setup (f := fun x => { x with pulsePtr := jumpTarget .pulse r s }) .of_same).trans
    (raiseFatalIf_setup _ _ _)).trans (.ite (afterPulse_setup _) (goto_setup _ _))

theorem filterModulate_setup (r : Byte) : KeepsSetup p s (filterModulate r s) := by
  rcases filterModulate_cases r s with ⟨_, h⟩ | ⟨_, _, h⟩ | ⟨_, _, h⟩ <;> rw [h] <;> exact .of_same

/-- A filter entry's own part, then its modulation step (R290). -/
theorem filterEntry_setup (r : Byte) {f : State → State} (hf : KeepsSetup p s (f s)) :
    KeepsSetup p s ((filterModulate r (filterStart f s)).goto .sharedOut) :=
  .trans (.ite hf (.refl s)) ((filterModulate_setup _ r).trans (goto_setup _ _))

theorem fType_setup (ty : BitVec 3) (ctl : Byte) : KeepsSetup p s (perform (.fType ty ctl) s) := by
  have habsorb : ∀ t, KeepsSetup p t (absorbCut t) := fun t => .ite .of_same (.refl t)
  exact filterEntry_setup s ctl
    (f := fun t => absorbCut { t with filtType := filterTypeByte ty, filtCtrl := ctl, filtPtr := t.filtPtr + 1#8 })
    (.trans .of_same (habsorb _))

/-! ## Transport actions -/

/-- An operation on the three channels in their order. -/
theorem threeChannels_setup {f : Chan → State → State} (hf : ∀ c t, KeepsSetup p t (f c t)) :
    KeepsSetup p s (f .c2 (f .c1 (f .c0 s))) :=
  ((hf .c0 s).trans (hf .c1 _)).trans (hf .c2 _)

theorem setPlaying_setup (b : Bool) : KeepsSetup p s { s with playing := b } := .of_same

theorem startChannel_setup (c : Chan) : KeepsSetup p s (startChannel c s) := by
  unfold startChannel
  exact ((modCh_setup .of_same).trans (sequencer_setup _ c)).trans (modCh_setup .of_same)

theorem startSong_setup : KeepsSetup p s (startSong s) := by
  have hclear : KeepsSetup p s { s with fatal := 0#7 } := .of_same
  simp only [startSong]
  split_ifs
  · exact hclear.trans (raiseFatal_setup _ _)
  · exact ((hclear.trans (t := { s with fatal := 0#7 }) (u := startShared { s with fatal := 0#7 }) .of_same).trans
      (threeChannels_setup _ fun c t => startChannel_setup t c)).trans (setPlaying_setup _ true)

/-- A Pause writes the start positions, and nothing else the host sets (R143). -/
theorem pauseSong_setup (hp : ¬ p) : KeepsSetup p s (pauseSong s) := by
  have hposition : ∀ c t, KeepsSetup p t (pauseChannel c t) := by
    refine fun c t => (modCh_setup ⟨?_, fun h => absurd h hp⟩).trans (release_setup _ c)
    split_ifs <;> rfl
  exact (threeChannels_setup s hposition).trans (setPlaying_setup _ false)

theorem stopChannel_setup (c : Chan) : KeepsSetup p s (stopChannel c s) :=
  (release_setup s c).trans (modCh_setup .of_same)

theorem stopSong_setup : KeepsSetup p s (stopSong s) :=
  (threeChannels_setup s fun c t => stopChannel_setup t c).trans (setPlaying_setup _ false)

/-! ## The instructions -/

theorem perform_setup (i : Instr) (hi : p → i ≠ .aPause) : KeepsSetup p s (perform i s) := by
  cases i with
  | nRest | nNone | fwKeep | aNone => exact .refl s
  | nKoff | nKon | fwGoff | fwGon | fwWave => exact settled_modCur_setup .of_same
  | nNote n => exact nNote_setup s n
  | nop | pup | pdn | tpo | vib | swv => exact settled_modCur_setup .of_same
  | sad | ssr => exact setReg_setup s _ _
  | swp => exact loadWavePtr_setup s _ _
  | spp => exact loadPulsePtr_setup s _ _
  | sfp => exact loadFilterPtr_setup s _
  | sfc => exact setFilterControl_setup s _
  | sco | sFunk => exact .of_same
  | smv => exact setMasterVolume_setup s _
  | fnk d => exact fnk_setup s d
  | tmp d => exact tmp_setup s d
  | wKeep r => exact wavePass_setup s r
  | wDelay _ r => exact .ite (wavePass_setup s r) ((modCur_setup .of_same).trans (goto_setup _ _))
  | wWave _ r | wMute _ r => exact (modCur_setup .of_same).trans (wavePass_setup _ r)
  | wxNop | wxSwp | wxFnk => exact (raiseFatal_setup s _).trans (wavePassCommand_setup _)
  | wxPup | wxPdn | wxSwv => exact (modCur_setup .of_same).trans (wavePassCommand_setup _)
  | wxTpo => exact (tonePorta_setup s _ _).trans (wavePassCommand_setup _)
  | wxVib => exact (modCh_setup .of_same).trans (wavePassCommand_setup _)
  | wxSad | wxSsr => exact (setReg_setup s _ _).trans (wavePassCommand_setup _)
  | wxSpp => exact (loadPulsePtr_setup s _ _).trans (wavePassCommand_setup _)
  | wxSfp => exact (loadFilterPtr_setup s _).trans (wavePassCommand_setup _)
  | wxSfc r => exact (setFilterControl_setup s r).trans (wavePassCommand_setup _)
  | wxSco r => exact KeepsSetup.trans (t := { s with filtCutoff := r }) .of_same (wavePassCommand_setup _)
  | wxSmv => exact (setMasterVolume_setup s _).trans (wavePassCommand_setup _)
  | wJump => exact (modCur_setup .of_same).trans ((raiseFatalIf_setup _ _ _).trans (goto_setup _ _))
  | pHold r | pMod _ r | pSet _ r => exact (modCur_setup (pulseEntry_setup r .of_same)).trans (afterPulse_setup _)
  | pJump r => exact pJump_setup s r
  | fCut r | fMod _ r => exact filterEntry_setup s r .of_same
  | fType ty ctl => exact fType_setup s ty ctl
  | fJump => exact KeepsSetup.trans .of_same ((raiseFatalIf_setup _ _ _).trans (goto_setup _ _))
  | sSlide =>
    refine settled_modCur_setup ?_
    split_ifs
    · exact .of_same
    · exact .of_same
    · exact approachTarget_setup _ _
    · exact .of_same
  | sVib => exact settled_modCur_setup .of_same
  | naKeep => exact goto_setup s _
  | naRel | naAbs => exact applyNote_setup s _
  | aStart => exact startSong_setup s
  | aPause => exact pauseSong_setup s fun hp => hi hp rfl
  | aStop => exact stopSong_setup s
  | hTick | hAction | hTestnote | hRelease | hActive | hSetstart | hSetloop => exact .refl s

end

end Sys2Proof.Machine
end

section
/-! SUPPORT. What the phases of a tick, and a whole tick, leave of the host's own settings. -/

namespace Sys2Proof.Machine

/-! ## Where a Pause comes from -/

/-- What is fetched from a table stands under a cursor that is not 0 (R231, R280, R290). -/
theorem fetchEntry_word {k : Table} {g f : Format} {q : Byte} {s : State} {bytes : List Byte}
    (h : fetchEntry k g q s = .word f bytes) : g = f ∧ q ≠ 0x00#8 ∧ bytes = [s.left k q, s.right k q] := by
  unfold fetchEntry at h
  split_ifs at h with hq
  cases h
  exact ⟨rfl, hq, rfl⟩

/-- The mailbox is read as an action at the top of a tick only (R141). -/
theorem fetch_action {s : State} {bytes : List Byte} (h : fetch s = .word .action bytes) :
    s.phase = .actions ∧ bytes = [s.action.setWidth 8] := by
  cases hp : s.phase with
  | actions =>
    simp only [fetch, hp] at h
    cases h
    exact ⟨rfl, rfl⟩
  | filter | waveExec | pulseExec =>
    simp only [fetch, hp] at h
    cases (fetchEntry_word h).1
  | tickNEffects =>
    simp only [fetch, hp, fetchEffect] at h
    split_ifs at h <;> cases (fetchEntry_word h).1
  | getNewNotes =>
    simp only [fetch, hp, fetchRow] at h
    split_ifs at h
    cases h
  | idle =>
    simp only [fetch, hp, fetchHost] at h
    split at h <;> cases h
  | noteStart | dispatch | sharedOut | enter | tickN | tick0 | nextChannel =>
    simp only [fetch, hp] at h
    cases h

theorem decodeAction_eq_aPause (a : BitVec 2) (h : decodeAction (a.setWidth 8) = .aPause) : a = 2#2 := by
  revert a; decide

/-- A tick runs a Pause where it finds one in the mailbox only (R141, R143). -/
theorem ne_aPause_of_fetched {s : State} {f : Format} {bytes : List Byte} {i : Instr} (hf : fetch s = .word f bytes)
    (hd : decode f bytes = .ok i) (ha : s.action ≠ 2#2) : i ≠ .aPause := by
  rintro rfl
  cases decode_format hd
  obtain ⟨-, rfl⟩ := fetch_action hf
  exact ha (decodeAction_eq_aPause _ (Except.ok.inj hd))

/-! ## The phases of a tick -/

section
variable {p : Prop} (s : State)

/-- Inside a tick a fetch takes no request with it. -/
theorem beforeExec_setup (h : s.phase ≠ .idle) : KeepsSetup p s (beforeExec s) := by
  unfold beforeExec
  cases hp : s.phase with
  | idle => exact absurd hp h
  | actions => exact .of_same (ha := fun _ => (by decide : (0#2 : BitVec 2) ≠ 2#2))
  | getNewNotes => exact modCur_setup .of_same
  | filter | noteStart | dispatch | waveExec | tickNEffects | pulseExec => exact .refl s
  | sharedOut | enter | tickN | tick0 | nextChannel => exact .refl s

theorem noteLoads_setup : KeepsSetup p s (noteLoads s) :=
  (((loadWavePtr_setup s _ _).trans (.ite (.refl _) (loadPulsePtr_setup _ _ _))).trans
    (.ite (.refl _) (loadFilterPtr_setup _ _))).trans (setEnvelope_setup _ _ _ _)

theorem tick0End_setup : KeepsSetup p s (tick0End s) :=
  .ite ((modCur_setup .of_same).trans (goto_setup _ _)) (goto_setup s _)

theorem afterExec_setup (q : Phase) : KeepsSetup p s (afterExec q s) := by
  cases q with
  | actions | tickNEffects | getNewNotes => exact goto_setup s _
  | noteStart => exact (noteLoads_setup s).trans (goto_setup _ _)
  | dispatch => exact tick0End_setup s
  | idle | filter | waveExec | pulseExec | sharedOut | enter | tickN | tick0 | nextChannel => exact .refl s

theorem tickN_setup : KeepsSetup p s (tickN s) :=
  .ite ((modCur_setup .of_same).trans (raiseFatalIf_setup _ _ _)) (.refl s)

theorem tick0_setup : KeepsSetup p s (tick0 s) := by
  have hpattern : KeepsSetup p s (endOfPattern s) :=
    .ite (.ite (modCur_setup .of_same) (sequencer_setup s _)) (.refl s)
  have hnote : ∀ t, KeepsSetup p t (consumeNote t) := fun t => .ite (modCur_setup .of_same) (.refl t)
  exact ((hpattern.trans (modCur_setup .of_same)).trans (hnote _)).trans (goto_setup _ _)

theorem writeChannel_setup (c : Chan) : KeepsSetup p s (writeChannel c s) :=
  ((((setReg_setup s _ _).trans (setReg_setup _ _ _)).trans (setReg_setup _ _ _)).trans (setReg_setup _ _ _)).trans
    (setReg_setup _ _ _)

theorem writeShared_setup : KeepsSetup p s (writeShared s) :=
  (((setReg_setup s _ _).trans (setReg_setup _ _ _)).trans (setReg_setup _ _ _)).trans (setReg_setup _ _ _)

/-- Where the tick stands is nothing the host sets. -/
theorem setPlace_setup (c : Chan) (q : Phase) : KeepsSetup p s { s with chan := c, phase := q } := .of_same

theorem nextChannel_setup : KeepsSetup p s (nextChannel s) := by
  unfold nextChannel
  split <;> exact (writeChannel_setup s _).trans (setPlace_setup _ _ _)

theorem advance_setup : KeepsSetup p s (advance s) := by
  unfold advance
  cases s.phase with
  | filter | waveExec => exact goto_setup s _
  | sharedOut => exact (writeShared_setup s).trans (setPlace_setup _ _ _)
  | enter => exact (modCur_setup .of_same).trans (goto_setup _ _)
  | tickN => exact (tickN_setup s).trans (goto_setup _ _)
  | tick0 => exact tick0_setup s
  | tickNEffects => exact (modCur_setup (effectsWithoutEntry_setup _)).trans (goto_setup _ _)
  | pulseExec => exact afterPulse_setup s
  | getNewNotes => exact (modCur_setup .of_same).trans (goto_setup _ _)
  | nextChannel => exact nextChannel_setup s
  | idle | actions | noteStart | dispatch => exact .refl s

/-- A phase writes the start positions only where the mailbox asks for a Pause. -/
theorem microStep_setup : KeepsSetup (s.action ≠ 2#2) s (microStep s) := by
  unfold microStep
  split_ifs with hidle
  · exact .refl s
  · split
    · exact advance_setup s
    · exact .refl s
    · next f bytes hf =>
      split
      · next i hd =>
        exact ((beforeExec_setup s hidle).trans (perform_setup _ i (ne_aPause_of_fetched hf hd))).trans
          (afterExec_setup _ _)
      · exact .refl s

theorem tickAt_setup (n : Nat) : KeepsSetup (s.action ≠ 2#2) s (tickAt n s) := by
  induction n with
  | zero => exact goto_setup s _
  | succ n ih => rw [tickAt_succ]; exact ih.trans ((microStep_setup _).imp ih.noPause)

theorem runTick_setup : KeepsSetup (s.action ≠ 2#2) s (runTick s) := runTick_eq_tickAt s ▸ tickAt_setup s 37

end

/-- Settles O54: the memories by `Keeps`, everything else by `KeepsSetup`. -/
theorem tickLeavesTheHostsStateAlone : Obligations.TickLeavesTheHostsStateAlone := by
  intro s hidle
  have hkeeps := runTick_keeps s
  have hsetup := runTick_setup s
  exact ⟨runTick s, if_pos hidle, hkeeps.mem, hkeeps.freqRom, hsetup.requests, hsetup.loopPattern,
    fun c => (hsetup.channels c).1, fun hpause c => (hsetup.channels c).2 hpause⟩

end Sys2Proof.Machine
end

section
/-! SUPPORT. Frames of the shared operations, and the note and first-waveform bytes (R102, R106, R107, R180). -/

namespace Sys2Proof.Machine

/-! ## Frames -/

theorem OnlyChannelOf.refl (c : Chan) (l : List (Fin 25)) (s : State) : OnlyChannelOf c l s s :=
  ⟨rfl, ⟨rfl, rfl⟩, fun _ _ => rfl, ⟨rfl, rfl, rfl, rfl, rfl, rfl, rfl, rfl⟩, ⟨rfl, rfl, rfl, rfl⟩, fun _ _ => rfl,
    fun _ => rfl, rfl⟩

theorem modCh_onlyChannelOf (c : Chan) (l : List (Fin 25)) (f : Channel → Channel) (s : State) :
    OnlyChannelOf c l s (s.modCh c f) := by
  refine ⟨modCh_phase .., ⟨modCh_chan .., modCh_requests ..⟩, fun d hd => modCh_ch_ne s c d f hd, ?_, ?_,
    fun a _ => modCh_regAt s c f a, fun a => congrArg (Memory.read · a) (modCh_mem s c f), modCh_freqRom ..⟩
  · exact ⟨modCh_filtPtr .., modCh_filtTime .., modCh_filtType .., modCh_filtCutoff .., modCh_filtCtrl ..,
      modCh_fader .., modCh_funk0 .., modCh_funk1 ..⟩
  · exact ⟨modCh_playing .., modCh_action .., modCh_fatal .., modCh_loopPattern ..⟩

/-- An update of the channel being stepped changes nothing else. -/
theorem modCur_onlyChannel (f : Channel → Channel) (s : State) :
    OnlyChannel s (s.modCur f) ∧ (s.modCur f).phase = s.phase := by
  obtain ⟨hphase, hrest⟩ := modCh_onlyChannelOf s.chan [] f s
  exact ⟨hrest, hphase⟩

theorem setEnvelope_onlyChannelOf (c : Chan) (ad sr : Byte) (s : State) :
    OnlyChannelOf c [regIdx c 5, regIdx c 6] s (setEnvelope c ad sr s) := by
  obtain ⟨-, -, himage, -⟩ := setEnvelope_spec c ad sr s
  exact ⟨rfl, ⟨rfl, rfl⟩, fun d _ => setEnvelope_ch c ad sr s d, ⟨rfl, rfl, rfl, rfl, rfl, rfl, rfl, rfl⟩,
    ⟨rfl, rfl, rfl, rfl⟩, himage, fun _ => rfl, rfl⟩

section
variable {s t u : State}

theorem SamePlace.trans (h : SamePlace s t) (k : SamePlace t u) : SamePlace s u := ⟨k.1.trans h.1, k.2.trans h.2⟩

theorem SameOthers.trans {c : Chan} (h : SameOthers c s t) (k : SameOthers c t u) : SameOthers c s u :=
  fun d hd => (k d hd).trans (h d hd)

theorem SameShared.trans (h : SameShared s t) (k : SameShared t u) : SameShared s u := by
  obtain ⟨h1, h2, h3, h4, h5, h6, h7, h8⟩ := h
  obtain ⟨k1, k2, k3, k4, k5, k6, k7, k8⟩ := k
  exact ⟨k1.trans h1, k2.trans h2, k3.trans h3, k4.trans h4, k5.trans h5, k6.trans h6, k7.trans h7, k8.trans h8⟩

theorem SameControl.trans (h : SameControl s t) (k : SameControl t u) : SameControl s u := by
  obtain ⟨h1, h2, h3, h4⟩ := h
  obtain ⟨k1, k2, k3, k4⟩ := k
  exact ⟨k1.trans h1, k2.trans h2, k3.trans h3, k4.trans h4⟩

theorem ControlAfter.trans {b : Bool} {k : Cause} (h : ControlAfter b k s t) (hu : SameControl t u) :
    ControlAfter b k s u := by
  obtain ⟨hplaying, hloop, hfatal, haction⟩ := h
  obtain ⟨kplaying, kaction, kfatal, kloop⟩ := hu
  exact ⟨kplaying.trans hplaying, kloop.trans hloop, kfatal.trans hfatal, kaction.trans haction⟩

theorem SameImageBut.trans {l : List (Fin 25)} (h : SameImageBut l s t) (k : SameImageBut l t u) :
    SameImageBut l s u := fun a ha => (k a ha).trans (h a ha)

theorem SameCells.trans (h : SameCells s t) (k : SameCells t u) : SameCells s u :=
  ⟨fun a => (k.1 a).trans (h.1 a), k.2.trans h.2⟩

theorem sameImage_of_reg (h : t.reg = s.reg) : SameImageBut [] s t := fun a _ => by rw [State.regAt, h]; rfl

theorem sameCells_of_mem (hm : t.mem = s.mem) (hr : t.freqRom = s.freqRom) : SameCells s t :=
  ⟨fun a => by rw [hm], hr⟩

theorem OnlyChannelOf.trans {c : Chan} {l : List (Fin 25)} (h : OnlyChannelOf c l s t) (k : OnlyChannelOf c l t u) :
    OnlyChannelOf c l s u := by
  obtain ⟨hphase, hplace, hothers, hshared, hcontrol, himage, hcells⟩ := h
  obtain ⟨kphase, kplace, kothers, kshared, kcontrol, kimage, kcells⟩ := k
  exact ⟨kphase.trans hphase, hplace.trans kplace, hothers.trans kothers, hshared.trans kshared,
    hcontrol.trans kcontrol, himage.trans kimage, hcells.trans kcells⟩

end

/-! ## First-waveform bytes (R107) -/

/-- Settles O18: each class but the first is an update of the channel being stepped. -/
theorem firstWaveformBytes : Obligations.FirstWaveformBytes := by
  intro s w
  refine ⟨rfl, ⟨_, rfl, ?_⟩, ⟨_, rfl, ?_⟩, ⟨_, rfl, ?_⟩⟩
  all_goals exact ⟨modCur_ch_self .., modCur_onlyChannel ..⟩

/-! ## The lead-in of a note (R106, R180) -/

theorem and_twoPow_eq_zero_iff (g : Byte) (j : Nat) (hj : j < 8) :
    g &&& BitVec.twoPow 8 j = 0x00#8 ↔ g.getLsbD j = false := by
  have hpow : BitVec.twoPow 8 j ≠ 0x00#8 := fun h => by simpa [hj] using congrArg (·.getLsbD j) h
  rw [BitVec.and_twoPow]
  cases g.getLsbD j <;> simp [hpow]

/-- What the lead-in does, by bits 6 and 7 of the gate-timer byte (R106). -/
theorem leadIn_cases (c : Chan) (g : Byte) (s : State) :
    (g &&& 0x40#8 ≠ 0x00#8 ∧ leadIn c g s = s) ∨
    (g &&& 0x40#8 = 0x00#8 ∧ g &&& 0x80#8 ≠ 0x00#8 ∧ leadIn c g s = s.modCh c fun x => { x with gate := 0xFE#8 }) ∨
    (g &&& 0x40#8 = 0x00#8 ∧ g &&& 0x80#8 = 0x00#8 ∧
      leadIn c g s = setEnvelope c Config.hrAd Config.hrSr (s.modCh c fun x => { x with gate := 0xFE#8 })) := by
  have hoff : g &&& 0x40#8 = 0x00#8 ↔ gateOffDisabled g = false := and_twoPow_eq_zero_iff g 6 (by decide)
  have hhard : g &&& 0x80#8 = 0x00#8 ↔ hardRestartDisabled g = false := and_twoPow_eq_zero_iff g 7 (by decide)
  rw [ne_eq, ne_eq, hoff, hhard]
  unfold leadIn
  cases gateOffDisabled g <;> cases hardRestartDisabled g <;> simp

/-- What the lead-in writes: the gate byte if bit 6 of the gate-timer byte is 0, and the envelope bytes if bit 7 is 0
as well. -/
theorem leadIn_spec (c : Chan) (g : Byte) (s : State) :
    let gateOff := g &&& 0x40#8 = 0x00#8
    let hardRestart := gateOff ∧ g &&& 0x80#8 = 0x00#8
    (leadIn c g s).ch c = { s.ch c with gate := if gateOff then 0xFE#8 else (s.ch c).gate } ∧
    (leadIn c g s).regAt (regIdx c 5) = (if hardRestart then 0x0F#8 else s.regAt (regIdx c 5)) ∧
    (leadIn c g s).regAt (regIdx c 6) = (if hardRestart then 0x00#8 else s.regAt (regIdx c 6)) ∧
    OnlyChannelOf c [regIdx c 5, regIdx c 6] s (leadIn c g s) := by
  have hgate := modCh_onlyChannelOf c [regIdx c 5, regIdx c 6] (fun x => { x with gate := 0xFE#8 }) s
  rcases leadIn_cases c g s with ⟨hoff, he⟩ | ⟨hoff, hhard, he⟩ | ⟨hoff, hhard, he⟩
  · simp [he, hoff, OnlyChannelOf.refl]
  · simp [he, hoff, hhard, hgate]
  · obtain ⟨had, hsr, -⟩ := setEnvelope_spec c Config.hrAd Config.hrSr (s.modCh c fun x => { x with gate := 0xFE#8 })
    have hframe := hgate.trans (setEnvelope_onlyChannelOf c Config.hrAd Config.hrSr _)
    rw [he]
    exact ⟨by simp [hoff], had.trans (if_pos ⟨hoff, hhard⟩).symm, hsr.trans (if_pos ⟨hoff, hhard⟩).symm, hframe⟩

/-! ## Note bytes (R102) -/

/-- A note is queued, transposed, and led in to unless the pending command is tone-portamento (R180). -/
theorem exec_nNote_cases (n : Byte) (s : State) :
    let queued := s.modCur fun x => { x with newnote := n + x.trans, nnPend := true }
    ((s.ch s.chan).newcommand = 3#4 ∧ exec (.nNote n) s = .next queued) ∨
    ((s.ch s.chan).newcommand ≠ 3#4 ∧
      exec (.nNote n) s = .next (leadIn s.chan (s.instrByte (s.ch s.chan).instr .gatetimer) queued)) := by
  by_cases hporta : (s.ch s.chan).newcommand = 3#4
  · exact .inl ⟨hporta, congrArg Host.Outcome.next (if_pos (beq_iff_eq.mpr hporta))⟩
  · exact .inr ⟨hporta, congrArg Host.Outcome.next (if_neg (mt beq_iff_eq.mp hporta))⟩

/-- What queueing a note writes (R180). -/
theorem exec_nNote_spec (n : Byte) (s : State) :
    let x := s.ch s.chan
    let g := s.instrByte x.instr .gatetimer
    let gateOff := x.newcommand ≠ 3#4 ∧ g &&& 0x40#8 = 0x00#8
    let hardRestart := gateOff ∧ g &&& 0x80#8 = 0x00#8
    ∃ t, exec (.nNote n) s = .next t ∧
      t.ch s.chan = { x with newnote := n + x.trans, nnPend := true, gate := if gateOff then 0xFE#8 else x.gate } ∧
      t.regAt (regIdx s.chan 5) = (if hardRestart then 0x0F#8 else s.regAt (regIdx s.chan 5)) ∧
      t.regAt (regIdx s.chan 6) = (if hardRestart then 0x00#8 else s.regAt (regIdx s.chan 6)) ∧
      OnlyChannelOf s.chan [regIdx s.chan 5, regIdx s.chan 6] s t := by
  have hqueue := modCh_onlyChannelOf s.chan [regIdx s.chan 5, regIdx s.chan 6]
    (fun x => { x with newnote := n + x.trans, nnPend := true }) s
  rcases exec_nNote_cases n s with ⟨hporta, he⟩ | ⟨hporta, he⟩
  · exact ⟨_, he, by simp [hporta], by simp [hporta], by simp [hporta], hqueue⟩
  · obtain ⟨hch, had, hsr, hlead⟩ := leadIn_spec s.chan (s.instrByte (s.ch s.chan).instr .gatetimer)
      (s.modCur fun x => { x with newnote := n + x.trans, nnPend := true })
    refine ⟨_, he, hch.trans ?_, had.trans ?_, hsr.trans ?_, hqueue.trans hlead⟩
    all_goals simp [hporta]

/-- Settles O16: `exec_nNote_spec` for a note; the other classes are at most an update of the channel. -/
theorem noteBytes : Obligations.NoteBytes := by
  intro s n
  refine ⟨rfl, rfl, ⟨_, rfl, modCur_ch_self .., modCur_onlyChannel ..⟩,
    ⟨_, rfl, modCur_ch_self .., modCur_onlyChannel ..⟩, ?_⟩
  obtain ⟨t, he, hch, had, hsr, hphase, hplace, hothers, hshared, hcontrol, himage, hcells⟩ := exec_nNote_spec n s
  exact ⟨t, he, hch, had, hsr, himage, hplace, hothers, hshared, hcontrol, hcells, hphase⟩

end Sys2Proof.Machine
end

section
/-! SUPPORT. The set-pointer commands, from a row and from the wave table (R105, R208 to R210, R249, R250). -/

namespace Sys2Proof.Machine

/-! ## Loading a cursor -/

/-- A load raises its cause where the pointer names a jump. -/
theorem loadsJump_eq (k : Table) (p : Byte) (s : State) :
    (p != 0x00#8 && s.isJumpAt k p) = decide (p ≠ 0x00#8 ∧ s.left k p = 0xFF#8) := by
  rw [Bool.eq_iff_iff, Bool.and_eq_true, bne_iff_ne, State.isJumpAt, beq_iff_eq, decide_eq_true_iff]

theorem loadPulsePtr_chan (c : Chan) (p : Byte) (s : State) : (loadPulsePtr c p s).chan = s.chan :=
  (raiseFatalIf_chan ..).trans (modCh_chan ..)

theorem loadFilterPtr_chan (p : Byte) (s : State) : (loadFilterPtr p s).chan = s.chan := raiseFatalIf_chan ..

/-- Loading the wave cursor of the channel being stepped writes nothing else, and raises where it names a jump
(R208). -/
theorem loadWavePtr_cur (p : Byte) (s : State) :
    let t := loadWavePtr s.chan p s
    t.ch s.chan = { s.ch s.chan with wavePtr := p, wavetime := 0x00#8 } ∧
    OnlyChannelOrRaise (decide (p ≠ 0x00#8 ∧ s.left .wave p = 0xFF#8)) .jumpIntoJumpWave s t ∧ t.phase = s.phase := by
  obtain ⟨hch, hothers, hshared, hcontrol, hreg, hmem, hplace, hphase⟩ := loadWavePtr_spec s.chan p s
  rw [loadsJump_eq] at hcontrol
  have hcells := sameCells_of_mem hmem (loadWavePtr_freqRom s.chan p s)
  exact ⟨hch, ⟨hplace, hothers, hshared, hcontrol, sameImage_of_reg hreg, hcells⟩, hphase⟩

/-- Loading the pulse cursor of the channel being stepped writes nothing else, and raises where it names a jump
(R209). -/
theorem loadPulsePtr_cur (p : Byte) (s : State) :
    let t := loadPulsePtr s.chan p s
    t.ch s.chan = { s.ch s.chan with pulsePtr := p, pulsetime := 0x00#8 } ∧
    OnlyChannelOrRaise (decide (p ≠ 0x00#8 ∧ s.left .pulse p = 0xFF#8)) .jumpIntoJumpPulse s t ∧
    t.phase = s.phase := by
  obtain ⟨hch, hothers, hshared, hcontrol, hreg, hmem, hplace, hphase⟩ := loadPulsePtr_spec s.chan p s
  rw [loadsJump_eq] at hcontrol
  have hcells := sameCells_of_mem hmem (loadPulsePtr_freqRom s.chan p s)
  exact ⟨hch, ⟨hplace, hothers, hshared, hcontrol, sameImage_of_reg hreg, hcells⟩, hphase⟩

/-- The filter cursor is loaded with `p`: what a load of the shared cursor does to everything but the channels
(R210). -/
def FilterLoaded (p : Byte) (s t : State) : Prop :=
  t.filtPtr = p ∧ t.filtTime = 0x00#8 ∧ t.filtType = s.filtType ∧ t.filtCutoff = s.filtCutoff ∧
  t.filtCtrl = s.filtCtrl ∧ t.fader = s.fader ∧ t.funk0 = s.funk0 ∧ t.funk1 = s.funk1 ∧
  ControlAfter (decide (p ≠ 0x00#8 ∧ s.left .filter p = 0xFF#8)) .jumpIntoJumpFilter s t ∧
  SamePlace s t ∧ SameImageBut [] s t ∧ SameCells s t

/-- Loading the shared filter cursor writes no channel, and raises where it names a jump (R210). -/
theorem loadFilterPtr_loaded (p : Byte) (s : State) :
    let t := loadFilterPtr p s
    FilterLoaded p s t ∧ SameChannels s t ∧ t.phase = s.phase := by
  obtain ⟨hptr, htime, hchannels, hcontrol, htype, hcutoff, hctrl, hfader, hfunk0, hfunk1, hreg, hmem, hplace,
    hphase⟩ := loadFilterPtr_spec p s
  rw [loadsJump_eq] at hcontrol
  have hcells := sameCells_of_mem hmem (loadFilterPtr_freqRom p s)
  exact ⟨⟨hptr, htime, htype, hcutoff, hctrl, hfader, hfunk0, hfunk1, hcontrol, hplace, sameImage_of_reg hreg, hcells⟩,
    hchannels, hphase⟩

/-! ## Passing the entry of an embedded command (R239) -/

/-- Passing the entry changes the cursor of the channel being stepped, and the phase. -/
theorem wavePassCommand_spec (s : State) :
    (wavePassCommand s).ch s.chan = (s.ch s.chan).passed ∧ OnlyChannel s (wavePassCommand s) ∧
    (wavePassCommand s).phase = .pulseExec :=
  ⟨(goto_ch ..).trans (waveAdvance_ch s), (modCur_onlyChannel _ s).1, rfl⟩

section
variable {s t u : State}

/-- A change that only the channel being stepped sees, after a change of that channel that may raise a cause. -/
theorem OnlyChannelOrRaise.trans {b : Bool} {k : Cause} (h : OnlyChannelOrRaise b k s t) (hu : OnlyChannel t u) :
    OnlyChannelOrRaise b k s u := by
  obtain ⟨hplace, hothers, hshared, hcontrol, himage, hcells⟩ := h
  obtain ⟨kplace, kothers, kshared, kcontrol, kimage, kcells⟩ := hu
  exact ⟨hplace.trans kplace, hothers.trans (hplace.1 ▸ kothers), hshared.trans kshared, hcontrol.trans kcontrol,
    himage.trans kimage, hcells.trans kcells⟩

theorem FilterLoaded.trans {p : Byte} (h : FilterLoaded p s t) (hu : OnlyChannel t u) : FilterLoaded p s u := by
  obtain ⟨hptr, htime, htype, hcutoff, hctrl, hfader, hfunk0, hfunk1, hcontrol, hplace, himage, hcells⟩ := h
  obtain ⟨kplace, -, ⟨kptr, ktime, ktype, kcutoff, kctrl, kfader, kfunk0, kfunk1⟩, kcontrol, kimage, kcells⟩ := hu
  exact ⟨kptr.trans hptr, ktime.trans htime, ktype.trans htype, kcutoff.trans hcutoff, kctrl.trans hctrl,
    kfader.trans hfader, kfunk0.trans hfunk0, kfunk1.trans hfunk1, hcontrol.trans kcontrol, hplace.trans kplace,
    himage.trans kimage, hcells.trans kcells⟩

end

/-- Settles O29: the load of each cursor, and for an embedded command the passing of its entry after it. -/
theorem setPointerCommands : Obligations.SetPointerCommands := by
  intro s d slot w p f loaded
  obtain ⟨hpulseCh, hpulse, hpulsePhase⟩ := loadPulsePtr_cur p s
  obtain ⟨hfilter, hchannels, hfilterPhase⟩ := loadFilterPtr_loaded f s
  refine ⟨⟨_, rfl, loadWavePtr_cur w s⟩, ⟨_, rfl, hpulseCh, hpulse, hpulsePhase⟩, ⟨_, rfl, ?_⟩,
    ⟨_, rfl, hfilter, hchannels, hfilterPhase⟩, ⟨_, rfl, ?_⟩⟩
  · obtain ⟨hpassedCh, hpassed, hphase⟩ := wavePassCommand_spec (loadPulsePtr s.chan p s)
    rw [loadPulsePtr_chan, hpulseCh] at hpassedCh
    exact ⟨hpassedCh, hpulse.trans hpassed, hphase⟩
  · obtain ⟨hpassedCh, hpassed, hphase⟩ := wavePassCommand_spec (loadFilterPtr f s)
    rw [loadFilterPtr_chan, hchannels] at hpassedCh
    have hloaded := hfilter.trans hpassed
    obtain ⟨-, hothers, -⟩ := hpassed
    rw [loadFilterPtr_chan] at hothers
    exact ⟨hloaded, fun c hc => (hothers c hc).trans (hchannels c), hpassedCh, hphase⟩

end Sys2Proof.Machine
end

section
/-! SUPPORT. The three readings of a speed entry, in plain numbers (R112, R260, R263, R264). -/

namespace Sys2Proof.Machine

/-! ## Slides (R260, R263) -/

theorem toNat_entry (l r : Byte) : (l ++ r : Word).toNat = l.toNat * 256 + r.toNat := by
  rw [BitVec.toNat_append, ← Nat.shiftLeft_add_eq_or_of_lt r.isLt, Nat.shiftLeft_eq]

/-- The slide reading of an entry (R260): its value as a 16-bit number, note-relative where bit 15 is set. -/
theorem slideReading_eq (rom : Vector Word 96) (n : BitVec 7) (l r : Byte) :
    slideReading rom n l r =
      if l.toNat * 256 + r.toNat < 0x8000 then BitVec.ofNat 16 (l.toNat * 256 + r.toNat) else relStep rom n r := by
  have hvalue := toNat_entry l r
  have hge : 0x8000#16 ≤ (l ++ r : Word) ↔ ¬ l.toNat * 256 + r.toNat < 0x8000 := by
    rw [BitVec.le_def, hvalue, Nat.not_lt]; rfl
  delta slideReading
  by_cases h : l.toNat * 256 + r.toNat < 0x8000
  · rw [if_neg (fun hle => hge.mp hle h), if_pos h, ← hvalue, BitVec.ofNat_toNat, BitVec.setWidth_eq]
  · rw [if_pos (hge.mpr h), if_neg h]

/-- Tone-portamento by a step (R263): one of the two blocks acts, and leaves the other nothing to do. -/
theorem approachTarget_eq (rom : Vector Word 96) (step : Word) (x : Channel) :
    approachTarget rom step x =
      let target := freqAt rom x.note
      if x.freq = target then x
      else if x.freq < target then
        (if target < x.freq + step then { x with freq := target, vibtime := 0x00#8 }
         else { x with freq := x.freq + step })
      else
        (if x.freq - step < target then { x with freq := target, vibtime := 0x00#8 }
         else { x with freq := x.freq - step }) := by
  delta approachTarget approachFromBelow approachFromAbove
  generalize freqAt rom x.note = target
  by_cases heq : x.freq = target
  · have hlt : ¬ target < target := BitVec.lt_irrefl target
    simp only [heq, hlt, if_false, if_true]
  · by_cases hbelow : x.freq < target
    · by_cases hclamp : target < x.freq + step
      · simp only [heq, hbelow, hclamp, if_false, if_true, BitVec.lt_irrefl target]
      · simp only [heq, hbelow, hclamp, if_false, if_true]
    · have habove : target < x.freq := by bv_omega
      simp only [heq, hbelow, habove, if_false, if_true]

/-! ## Vibrato (R264) -/

theorem vibTurns_iff (v cmp : Byte) : vibTurns v cmp = true ↔ cmp.toNat < v.toNat ∧ v.toNat < 128 := by
  rw [vibTurns, Bool.and_eq_true, decide_eq_true_iff, decide_eq_true_iff, and_comm]; rfl

theorem vibSubtracts_iff (v : Byte) : vibSubtracts v = true ↔ v.toNat % 2 = 1 := by
  rw [vibSubtracts, BitVec.getLsbD, Nat.testBit_zero, decide_eq_true_iff]

/-- The phase after a vibrato step, as a number. -/
def vibPhaseNat (v cmp : Nat) : Nat := ((if cmp < v ∧ v < 128 then 255 - v else v) + 2) % 256

theorem toNat_vibPhase (v cmp : Byte) : (vibPhase v cmp).toNat = vibPhaseNat v.toNat cmp.toNat := by
  have hinvert : (v ^^^ 0xFF#8).toNat = 255 - v.toNat := by
    rw [show 0xFF#8 = BitVec.allOnes 8 from rfl, BitVec.xor_allOnes, BitVec.toNat_not]
  delta vibPhase vibPhaseNat
  by_cases hturn : cmp.toNat < v.toNat ∧ v.toNat < 128
  · rw [if_pos ((vibTurns_iff v cmp).mpr hturn), if_pos hturn, BitVec.toNat_add, hinvert]; rfl
  · rw [if_neg (mt (vibTurns_iff v cmp).mp hturn), if_neg hturn, BitVec.toNat_add]; rfl

/-- One vibrato step, by its compare value and its step. -/
theorem vibrateBy_eq (op : Byte × Word) (x : Channel) :
    let w := vibPhaseNat x.vibtime.toNat op.1.toNat
    vibrateBy op x =
      { x with vibtime := BitVec.ofNat 8 w, freq := if w % 2 = 1 then x.freq - op.2 else x.freq + op.2 } := by
  have hphase : vibPhase x.vibtime op.1 = BitVec.ofNat 8 (vibPhaseNat x.vibtime.toNat op.1.toNat) := by
    rw [← toNat_vibPhase, BitVec.ofNat_toNat, BitVec.setWidth_eq]
  have hsubtracts : vibSubtracts (vibPhase x.vibtime op.1) = true ↔
      vibPhaseNat x.vibtime.toNat op.1.toNat % 2 = 1 := by
    rw [vibSubtracts_iff, toNat_vibPhase]
  dsimp only
  rw [← hphase]
  exact congrArg (fun f => { x with vibtime := vibPhase x.vibtime op.1, freq := f }) (if_congr hsubtracts rfl rfl)

/-- The vibrato reading of an entry (R264): the low 7 bits of `left` to compare with, and the step. -/
theorem vibReading_spec (rom : Vector Word 96) (n : BitVec 7) (l r : Byte) :
    (vibReading rom n l r).1.toNat = l.toNat % 128 ∧
    (vibReading rom n l r).2 = if l.toNat < 128 then r.setWidth 16 else relStep rom n r := by
  have hmask : (l &&& 0x7F#8).toNat = l.toNat % 128 := Nat.and_two_pow_sub_one_eq_mod l.toNat 7
  delta vibReading
  by_cases h : l.toNat < 128
  · rw [if_neg (by bv_omega), if_pos h]
    exact ⟨(Nat.mod_eq_of_lt h).symm, rfl⟩
  · rw [if_pos (by bv_omega), if_neg h]
    exact ⟨hmask, rfl⟩

/-! ## The readings -/

section
variable {s : State} {l r p : Byte}

/-- What the slide reading does to the channel being stepped, by the latched command. -/
theorem exec_sSlide_spec (l r : Byte) (s : State) :
    let x := s.ch s.chan
    let step := slideReading s.freqRom x.lastnote l r
    ∃ t, exec (.sSlide l r) s = .next t ∧
      (t.ch s.chan =
        if x.command = 1#4 then slideUp step x
        else if x.command = 2#4 then slideDown step x
        else if x.command = 3#4 then approachTarget s.freqRom step x
        else x) ∧
      OnlyChannel s t ∧ t.phase = s.phase :=
  ⟨_, rfl, modCur_ch_self .., modCur_onlyChannel ..⟩

theorem exec_sVib_spec (l r : Byte) (s : State) :
    ∃ t, exec (.sVib l r) s = .next t ∧
      t.ch s.chan = vibrateBy (vibReading s.freqRom (s.ch s.chan).lastnote l r) (s.ch s.chan) ∧
      OnlyChannel s t ∧ t.phase = s.phase :=
  ⟨_, rfl, modCur_ch_self .., modCur_onlyChannel ..⟩

/-- The step of an entry is that of an address where the speed table holds it. -/
theorem slideStep_of_entry (hp : p ≠ 0x00#8) (hl : l = s.left .speed p) (hr : r = s.right .speed p) (c : Chan) :
    slideStep c p s = slideReading s.freqRom (s.ch c).lastnote l r := by
  rw [hl, hr]; exact if_neg hp

theorem vibrato_of_entry (hp : p ≠ 0x00#8) (hl : l = s.left .speed p) (hr : r = s.right .speed p) (c : Chan) :
    (vibrato c p s).ch c = vibrateBy (vibReading s.freqRom (s.ch c).lastnote l r) (s.ch c) := by
  have hoperand : vibOperand c p s = vibReading s.freqRom (s.ch c).lastnote l r := by rw [hl, hr]; exact if_neg hp
  rw [vibrato, modCh_ch_self, hoperand]

theorem tonePorta_of_ne_zero (hp : p ≠ 0x00#8) (c : Chan) :
    (tonePorta c p s).ch c = approachTarget s.freqRom (slideStep c p s) (s.ch c) := by
  rw [tonePorta, if_neg hp, modCh_ch_self]

end

/-- Settles O43: each reading is the step of R260 or R264, in plain numbers. -/
theorem speedEntryReadings : Obligations.SpeedEntryReadings := by
  intro s l r p
  refine ⟨?_, ?_, ?_⟩
  · obtain ⟨t, he, hch, hframe, hphase⟩ := exec_sSlide_spec l r s
    refine ⟨t, he, hframe, hphase, hch.trans ?_, fun ⟨hp, hl, hr⟩ => ?_⟩
    · rw [slideReading_eq, approachTarget_eq]; rfl
    · rw [hch, tonePorta_of_ne_zero hp, slideStep_of_entry hp hl hr]; rfl
  · obtain ⟨t, he, hch, hframe, hphase⟩ := exec_sVib_spec l r s
    obtain ⟨hcmp, hstep⟩ := vibReading_spec s.freqRom (s.ch s.chan).lastnote l r
    refine ⟨t, he, hframe, hphase, hch.trans ?_, fun ⟨hp, hl, hr⟩ => ?_⟩
    · rw [vibrateBy_eq, hcmp, hstep]; rfl
    · rw [hch, vibrato_of_entry hp hl hr]
  · have honly : OnlyShared s { s with funk0 := l, funk1 := r } :=
      ⟨⟨rfl, rfl⟩, fun c => by cases c <;> rfl, ⟨rfl, rfl, rfl, rfl⟩, fun _ _ => rfl, fun _ => rfl, rfl⟩
    exact ⟨_, rfl, rfl, rfl, rfl, rfl, rfl, rfl, rfl, rfl, honly, rfl⟩

end Sys2Proof.Machine
end

section
/-! SUPPORT. Decoding and encoding are inverse to each other (30_encoding.md). -/

namespace Sys2Proof.Machine

/-! ## A field under a tag

The classes of R109 to R113 put an operand of `w` bits under a tag `k`, a multiple of `2 ^ w`. -/

section
variable {w : Nat} {k : Byte} (hw : w ≤ 8) (hk : 2 ^ w ∣ k.toNat)
include hw hk

theorem toNat_tagged (x : BitVec w) : (k ||| x.setWidth 8).toNat = k.toNat + x.toNat := by
  obtain ⟨a, ha⟩ := hk
  rw [BitVec.toNat_or, BitVec.toNat_setWidth_of_le hw, ha, Nat.two_pow_add_eq_or_of_lt x.isLt]

theorem setWidth_tagged (x : BitVec w) : (k ||| x.setWidth 8).setWidth w = x := by
  apply BitVec.eq_of_toNat_eq
  rw [BitVec.toNat_setWidth, toNat_tagged hw hk]
  obtain ⟨a, ha⟩ := hk
  rw [ha, Nat.mul_add_mod, Nat.mod_eq_of_lt x.isLt]

theorem tagged_setWidth {l : Byte} (hle : k ≤ l) (hlt : l.toNat < k.toNat + 2 ^ w) :
    k ||| (l.setWidth w).setWidth 8 = l := by
  apply BitVec.eq_of_toNat_eq
  rw [toNat_tagged hw hk, BitVec.toNat_setWidth]
  obtain ⟨x, hx⟩ := Nat.exists_eq_add_of_le (BitVec.le_def.mp hle)
  obtain ⟨a, ha⟩ := hk
  rw [hx, ha, Nat.mul_add_mod, Nat.mod_eq_of_lt (by omega)]

end

/-! ## The operand ranges -/

theorem wf_nNote_iff (n : Byte) : (Instr.nNote n).wf = true ↔ isNoteSentinel n = false ∧ inNoteRange n = true := by
  change (!isNoteSentinel n && inNoteRange n) = true ↔ _
  simp only [Bool.and_eq_true, Bool.not_eq_true']

theorem wf_nNone_iff (n : Byte) : (Instr.nNone n).wf = true ↔ isNoteSentinel n = false ∧ inNoteRange n = false := by
  change (!isNoteSentinel n && !inNoteRange n) = true ↔ _
  simp only [Bool.and_eq_true, Bool.not_eq_true']

theorem wf_fwWave_iff (w : Byte) : (Instr.fwWave w).wf = true ↔ 0x01#8 ≤ w ∧ w ≤ 0xFD#8 := by
  change (decide (0x01#8 ≤ w) && decide (w ≤ 0xFD#8)) = true ↔ _
  simp only [Bool.and_eq_true, decide_eq_true_eq]

theorem wf_wWave_iff (l r : Byte) : (Instr.wWave l r).wf = true ↔ 0x10#8 ≤ l ∧ l ≤ 0xDF#8 := by
  change (decide (0x10#8 ≤ l) && decide (l ≤ 0xDF#8)) = true ↔ _
  simp only [Bool.and_eq_true, decide_eq_true_eq]

/-! ## Decoding what the encoder writes: the classes a range selects -/

theorem decodeNote_of_not_sentinel {n : Byte} (h : isNoteSentinel n = false) :
    decodeNote n = if inNoteRange n then .nNote n else .nNone n := by
  delta isNoteSentinel at h
  simp only [Bool.or_eq_false_iff, beq_eq_false_iff_ne] at h
  obtain ⟨⟨hrest, hoff⟩, hon⟩ := h
  exact (if_neg hrest).trans ((if_neg hoff).trans (if_neg hon))

theorem decodeNote_nNote {n : Byte} (h : (Instr.nNote n).wf = true) : decodeNote n = .nNote n := by
  obtain ⟨hsentinel, hrange⟩ := (wf_nNote_iff n).mp h
  rw [decodeNote_of_not_sentinel hsentinel, if_pos hrange]

theorem decodeNote_nNone {n : Byte} (h : (Instr.nNone n).wf = true) : decodeNote n = .nNone n := by
  obtain ⟨hsentinel, hrange⟩ := (wf_nNone_iff n).mp h
  rw [decodeNote_of_not_sentinel hsentinel, hrange, if_neg Bool.false_ne_true]

theorem decodeFirstwave_fwWave {w : Byte} (h : (Instr.fwWave w).wf = true) : decodeFirstwave w = .fwWave w := by
  obtain ⟨hlow, hhigh⟩ := (wf_fwWave_iff w).mp h
  delta decodeFirstwave
  rw [if_neg (by bv_omega), if_neg (by bv_omega), if_neg (by bv_omega)]

theorem decodeWave_wDelay {n : BitVec 4} (r : Byte) (h : (Instr.wDelay n r).wf = true) :
    decodeWave (n.setWidth 8) r = .wDelay n r := by
  have hn : n ≠ 0#4 := bne_iff_ne.mp h
  delta decodeWave
  rw [if_neg (by bv_omega), if_pos (by bv_omega), BitVec.setWidth_setWidth_of_le _ (by decide),
    BitVec.setWidth_eq]

theorem decodeWave_wWave {l : Byte} (r : Byte) (h : (Instr.wWave l r).wf = true) : decodeWave l r = .wWave l r := by
  obtain ⟨hlow, hhigh⟩ := (wf_wWave_iff l r).mp h
  delta decodeWave
  rw [if_neg (by bv_omega), if_neg (by bv_omega), if_pos (by bv_omega)]

theorem decodeWave_wMute (ctl : BitVec 4) (r : Byte) : decodeWave (0xE0#8 ||| ctl.setWidth 8) r = .wMute ctl r := by
  have htag := toNat_tagged (k := 0xE0#8) (by decide) (by decide) ctl
  have hfield := setWidth_tagged (k := 0xE0#8) (by decide) (by decide) ctl
  delta decodeWave
  rw [if_neg (by bv_omega), if_neg (by bv_omega), if_neg (by bv_omega), if_pos (by bv_omega), hfield]

/-- A modulation count is below the set and type entries (R110, R111). -/
theorem modCount_range {n : BitVec 7} (hn : n ≠ 0#7) : n.setWidth 8 ≠ 0x00#8 ∧ n.setWidth 8 < 0x80#8 := by
  constructor <;> bv_omega

theorem setWidth_modCount (n : BitVec 7) : (n.setWidth 8).setWidth 7 = n := by
  rw [BitVec.setWidth_setWidth_of_le _ (by decide), BitVec.setWidth_eq]

theorem decodePulse_pMod {n : BitVec 7} (r : Byte) (h : (Instr.pMod n r).wf = true) :
    decodePulse (n.setWidth 8) r = .pMod n r := by
  obtain ⟨hzero, hlow⟩ := modCount_range (bne_iff_ne.mp h)
  delta decodePulse
  rw [if_neg hzero, if_pos hlow, setWidth_modCount]

theorem decodePulse_pSet (hi : BitVec 4) (lo : Byte) : decodePulse (0x80#8 ||| hi.setWidth 8) lo = .pSet hi lo := by
  have htag := toNat_tagged (k := 0x80#8) (by decide) (by decide) hi
  have hfield := setWidth_tagged (k := 0x80#8) (by decide) (by decide) hi
  delta decodePulse
  rw [if_neg (by bv_omega), if_neg (by bv_omega), if_neg (by bv_omega), hfield]

theorem decodeFilter_fMod {n : BitVec 7} (r : Byte) (h : (Instr.fMod n r).wf = true) :
    decodeFilter (n.setWidth 8) r = .fMod n r := by
  obtain ⟨hzero, hlow⟩ := modCount_range (bne_iff_ne.mp h)
  delta decodeFilter
  rw [if_neg hzero, if_pos hlow, setWidth_modCount]

/-- The eight `left` bytes of a type entry (R111). -/
theorem filterTypeLeft_spec (ty : BitVec 3) :
    let l := 0x80#8 ||| (ty.setWidth 8 <<< 4)
    0x80#8 ≤ l ∧ l ≠ 0xFF#8 ∧ l.extractLsb' 4 3 = ty := by
  revert ty; decide

theorem decodeFilter_fType (ty : BitVec 3) (ctl : Byte) :
    decodeFilter (0x80#8 ||| (ty.setWidth 8 <<< 4)) ctl = .fType ty ctl := by
  obtain ⟨hlow, hjump, hfield⟩ := filterTypeLeft_spec ty
  delta decodeFilter
  rw [if_neg (by bv_omega), if_neg (by bv_omega), if_neg hjump, hfield]

theorem decodeNoteAdj_naRel (o : BitVec 7) : decodeNoteAdj (o.setWidth 8) = .naRel o := by
  delta decodeNoteAdj
  rw [if_neg (by bv_omega), if_pos (by bv_omega), setWidth_modCount]

theorem decodeNoteAdj_naAbs {i : BitVec 7} (h : (Instr.naAbs i).wf = true) :
    decodeNoteAdj (0x80#8 ||| i.setWidth 8) = .naAbs i := by
  have hi : i ≠ 0#7 := bne_iff_ne.mp h
  have htag := toNat_tagged (k := 0x80#8) (by decide) (by decide) i
  have hfield := setWidth_tagged (k := 0x80#8) (by decide) (by decide) i
  delta decodeNoteAdj
  rw [if_neg (by bv_omega), if_neg (by bv_omega), hfield]

/-- The decoder undoes the encoder. In the classes left to `rfl` the selecting byte is a constant. -/
theorem decode_encode {i : Instr} {f : Format} (hwf : i.wf = true) (hf : i.format = some f) :
    decode f (encode i) = .ok i := by
  cases i with
  | nNote n => cases hf; exact congrArg _ (decodeNote_nNote hwf)
  | nNone n => cases hf; exact congrArg _ (decodeNote_nNone hwf)
  | fwWave w => cases hf; exact congrArg _ (decodeFirstwave_fwWave hwf)
  | wDelay n r => cases hf; exact congrArg _ (decodeWave_wDelay r hwf)
  | wWave l r => cases hf; exact congrArg _ (decodeWave_wWave r hwf)
  | wMute ctl r => cases hf; exact congrArg _ (decodeWave_wMute ctl r)
  | pMod n r => cases hf; exact congrArg _ (decodePulse_pMod r hwf)
  | pSet hi lo => cases hf; exact congrArg _ (decodePulse_pSet hi lo)
  | fMod n r => cases hf; exact congrArg _ (decodeFilter_fMod r hwf)
  | fType ty ctl => cases hf; exact congrArg _ (decodeFilter_fType ty ctl)
  | naRel o => cases hf; exact congrArg _ (decodeNoteAdj_naRel o)
  | naAbs i => cases hf; exact congrArg _ (decodeNoteAdj_naAbs hwf)
  | _ => cases hf <;> rfl

/-- Settles O1: the words by `decode_encode`, the host operations by their names (R114). -/
theorem decodeInvertsEncode : Obligations.DecodeInvertsEncode := by
  refine ⟨fun i f => decode_encode, fun i hnone => ?_, fun h => ?_⟩
  · cases i with
    | hTick | hAction | hTestnote | hRelease | hActive | hSetstart | hSetloop => exact ⟨_, rfl, rfl⟩
    | _ => cases hnone
  · cases h <;> exact ⟨rfl, rfl⟩

/-! ## Encoding what the decoder answers

What each decoder answers is well-formed, and its word is the used bits of the bytes decoded. -/

theorem decodeNote_wf_encode (n : Byte) : (decodeNote n).wf = true ∧ encode (decodeNote n) = [n] := by
  cases hs : isNoteSentinel n with
  | true =>
    delta isNoteSentinel at hs
    simp only [Bool.or_eq_true, beq_iff_eq] at hs
    obtain (rfl | rfl) | rfl := hs <;> exact ⟨rfl, rfl⟩
  | false =>
    rw [decodeNote_of_not_sentinel hs]
    split_ifs with hrange
    · exact ⟨(wf_nNote_iff n).mpr ⟨hs, hrange⟩, rfl⟩
    · exact ⟨(wf_nNone_iff n).mpr ⟨hs, Bool.eq_false_iff.mpr hrange⟩, rfl⟩

theorem decodeFirstwave_wf_encode (w : Byte) : (decodeFirstwave w).wf = true ∧ encode (decodeFirstwave w) = [w] := by
  delta decodeFirstwave
  split_ifs with hkeep hoff hon
  · exact ⟨rfl, by rw [hkeep]; rfl⟩
  · exact ⟨rfl, by rw [hoff]; rfl⟩
  · exact ⟨rfl, by rw [hon]; rfl⟩
  · have hrange : 0x01#8 ≤ w ∧ w ≤ 0xFD#8 := by constructor <;> bv_omega
    exact ⟨(wf_fwWave_iff w).mpr hrange, rfl⟩

/-- The bytes of a field of `w` low bits, the bits above it ignored (R103, R114). -/
theorem and_lowMask {w : Nat} (b : Byte) (hw : w ≤ 8) :
    b &&& BitVec.ofNat 8 (2 ^ w - 1) = BitVec.ofNat 8 (b.setWidth w).toNat := by
  apply BitVec.eq_of_toNat_eq
  have hpow : 2 ^ w ≤ 2 ^ 8 := Nat.pow_le_pow_right (by decide) hw
  rw [BitVec.toNat_and, BitVec.toNat_ofNat, Nat.mod_eq_of_lt (by omega), Nat.and_two_pow_sub_one_eq_mod,
    BitVec.toNat_ofNat, BitVec.toNat_setWidth]
  omega

theorem decodeCmd_wf_encode (b d : Byte) : (decodeCmd b d).wf = true ∧ encode (decodeCmd b d) = [b &&& 0x0F#8, d] := by
  have hmask : b &&& 0x0F#8 = BitVec.ofNat 8 (b.setWidth 4).toNat := and_lowMask (w := 4) b (by decide)
  rw [hmask]
  have hlt := (b.setWidth 4).isLt
  delta decodeCmd
  generalize (b.setWidth 4).toNat = k at hlt ⊢
  interval_cases k <;> exact ⟨rfl, rfl⟩

theorem decodeEmbedded_wf_encode {l : Byte} (r : Byte) (hlow : 0xF0#8 ≤ l) (hjump : l ≠ 0xFF#8) :
    (decodeEmbedded (l.setWidth 4) r).wf = true ∧ encode (decodeEmbedded (l.setWidth 4) r) = [l, r] := by
  have hlt : (l.setWidth 4).toNat < 15 := by bv_omega
  have hl : l = BitVec.ofNat 8 (0xF0 + (l.setWidth 4).toNat) := by bv_omega
  rw [hl]
  delta decodeEmbedded
  generalize (l.setWidth 4).toNat = k at hlt ⊢
  interval_cases k <;> exact ⟨rfl, rfl⟩

theorem decodeWave_wf_encode (l r : Byte) : (decodeWave l r).wf = true ∧ encode (decodeWave l r) = [l, r] := by
  delta decodeWave
  split_ifs with hkeep hdelay hwave hmute hjump
  · exact ⟨rfl, by rw [hkeep]; rfl⟩
  · have hn : l.setWidth 4 ≠ 0#4 := by bv_omega
    have hl : (l.setWidth 4).setWidth 8 = l := by bv_omega
    exact ⟨bne_iff_ne.mpr hn, congrArg (fun b => [b, r]) hl⟩
  · have hrange : 0x10#8 ≤ l ∧ l ≤ 0xDF#8 := by constructor <;> bv_omega
    exact ⟨(wf_wWave_iff l r).mpr hrange, rfl⟩
  · have hl := tagged_setWidth (w := 4) (k := 0xE0#8) (l := l) (by decide) (by decide) (by bv_omega) (by bv_omega)
    exact ⟨rfl, congrArg (fun b => [b, r]) hl⟩
  · exact ⟨rfl, by rw [hjump]; rfl⟩
  · exact decodeEmbedded_wf_encode r (by bv_omega) hjump

theorem getLsbD_seven_of_le {l : Byte} (h : 0x80#8 ≤ l) : l.getLsbD 7 = true := by
  rw [← BitVec.msb_eq_getLsbD_last, BitVec.msb_eq_decide]
  exact decide_eq_true (BitVec.le_def.mp h)

theorem setField_used {l : Byte} (h : 0x80#8 ≤ l) : 0x80#8 ||| (l.setWidth 4).setWidth 8 = l &&& 0x8F#8 := by
  have hbit := getLsbD_seven_of_le h
  refine BitVec.eq_of_getLsbD_eq fun j hj => ?_
  interval_cases j <;> simp [hbit]

theorem typeField_used {l : Byte} (h : 0x80#8 ≤ l) :
    0x80#8 ||| ((l.extractLsb' 4 3).setWidth 8 <<< 4) = l &&& 0xF0#8 := by
  have hbit := getLsbD_seven_of_le h
  refine BitVec.eq_of_getLsbD_eq fun j hj => ?_
  interval_cases j <;> simp [hbit]

/-- A `left` byte in the modulation range is its own count, and the count is not 0 (R110, R111). -/
theorem modCount_roundTrip {l : Byte} (hzero : l ≠ 0x00#8) (hlow : l < 0x80#8) :
    (l.setWidth 7 != 0#7) = true ∧ (l.setWidth 7).setWidth 8 = l := by
  have hn : l.setWidth 7 ≠ 0#7 := by bv_omega
  exact ⟨bne_iff_ne.mpr hn, by bv_omega⟩

/-- Outside the set and type entries every bit of a pulse or filter entry counts (R110, R111). -/
theorem usedBits_untagged {l : Byte} (r : Byte) (h : ¬(0x80#8 ≤ l ∧ l ≠ 0xFF#8)) :
    usedBits .pulse [l, r] = [l, r] ∧ usedBits .filter [l, r] = [l, r] :=
  ⟨if_neg h, if_neg h⟩

theorem decodePulse_wf_encode (l r : Byte) :
    (decodePulse l r).wf = true ∧ encode (decodePulse l r) = usedBits .pulse [l, r] := by
  delta decodePulse
  split_ifs with hhold hmod hjump
  · rw [(usedBits_untagged r (by bv_omega)).1, hhold]
    exact ⟨rfl, rfl⟩
  · rw [(usedBits_untagged r (by bv_omega)).1]
    obtain ⟨hn, hl⟩ := modCount_roundTrip hhold hmod
    exact ⟨hn, congrArg (fun b => [b, r]) hl⟩
  · rw [(usedBits_untagged r (by bv_omega)).1, hjump]
    exact ⟨rfl, rfl⟩
  · have hset : 0x80#8 ≤ l := by bv_omega
    have hused : usedBits .pulse [l, r] = [l &&& 0x8F#8, r] := if_pos ⟨hset, hjump⟩
    rw [hused, ← setField_used hset]
    exact ⟨rfl, rfl⟩

theorem decodeFilter_wf_encode (l r : Byte) :
    (decodeFilter l r).wf = true ∧ encode (decodeFilter l r) = usedBits .filter [l, r] := by
  delta decodeFilter
  split_ifs with hcut hmod hjump
  · rw [(usedBits_untagged r (by bv_omega)).2, hcut]
    exact ⟨rfl, rfl⟩
  · rw [(usedBits_untagged r (by bv_omega)).2]
    obtain ⟨hn, hl⟩ := modCount_roundTrip hcut hmod
    exact ⟨hn, congrArg (fun b => [b, r]) hl⟩
  · rw [(usedBits_untagged r (by bv_omega)).2, hjump]
    exact ⟨rfl, rfl⟩
  · have htype : 0x80#8 ≤ l := by bv_omega
    have hused : usedBits .filter [l, r] = [l &&& 0xF0#8, r] := if_pos ⟨htype, hjump⟩
    rw [hused, ← typeField_used htype]
    exact ⟨rfl, rfl⟩

theorem decodeNoteAdj_wf_encode (r : Byte) : (decodeNoteAdj r).wf = true ∧ encode (decodeNoteAdj r) = [r] := by
  delta decodeNoteAdj
  split_ifs with hkeep hlow
  · exact ⟨rfl, by rw [hkeep]; rfl⟩
  · have hr : (r.setWidth 7).setWidth 8 = r := by bv_omega
    exact ⟨rfl, congrArg (fun b => [b]) hr⟩
  · have hi : r.setWidth 7 ≠ 0#7 := by bv_omega
    have hr := tagged_setWidth (w := 7) (k := 0x80#8) (l := r) (by decide) (by decide) (by bv_omega) (by bv_omega)
    exact ⟨bne_iff_ne.mpr hi, congrArg (fun b => [b]) hr⟩

theorem decodeAction_wf_encode (a : Byte) : (decodeAction a).wf = true ∧ encode (decodeAction a) = [a &&& 0x03#8] := by
  have hmask : a &&& 0x03#8 = BitVec.ofNat 8 (a.setWidth 2).toNat := and_lowMask (w := 2) a (by decide)
  rw [hmask]
  have hlt := (a.setWidth 2).isLt
  delta decodeAction
  generalize (a.setWidth 2).toNat = k at hlt ⊢
  interval_cases k <;> exact ⟨rfl, rfl⟩

theorem decode_wf_encode_of_size_one {f : Format} (b : Byte) (hf : f.size = 1) :
    ∃ i, decode f [b] = .ok i ∧ i.wf = true ∧ encode i = usedBits f [b] := by
  cases f with
  | note => exact ⟨_, rfl, decodeNote_wf_encode b⟩
  | firstwave => exact ⟨_, rfl, decodeFirstwave_wf_encode b⟩
  | noteadj => exact ⟨_, rfl, decodeNoteAdj_wf_encode b⟩
  | action => exact ⟨_, rfl, decodeAction_wf_encode b⟩
  | cmd | wave | pulse | filter | slide | vibrato | funk => cases hf

theorem decode_wf_encode_of_size_two {f : Format} (l r : Byte) (hf : f.size = 2) :
    ∃ i, decode f [l, r] = .ok i ∧ i.wf = true ∧ encode i = usedBits f [l, r] := by
  cases f with
  | cmd => exact ⟨_, rfl, decodeCmd_wf_encode l r⟩
  | wave => exact ⟨_, rfl, decodeWave_wf_encode l r⟩
  | pulse => exact ⟨_, rfl, decodePulse_wf_encode l r⟩
  | filter => exact ⟨_, rfl, decodeFilter_wf_encode l r⟩
  | slide | vibrato | funk => exact ⟨_, rfl, rfl, rfl⟩
  | note | firstwave | noteadj | action => cases hf

/-- A word of the format's length decodes, to an instruction whose own word is the word's used bits. -/
theorem decode_wf_encode {f : Format} {bytes : List Byte} (hlen : bytes.length = f.size) :
    ∃ i, decode f bytes = .ok i ∧ i.wf = true ∧ encode i = usedBits f bytes := by
  rcases bytes with _ | ⟨l, _ | ⟨r, _ | ⟨_, _⟩⟩⟩
  · cases f <;> cases hlen
  · exact decode_wf_encode_of_size_one l hlen.symm
  · exact decode_wf_encode_of_size_two l r hlen.symm
  · cases f <;> cases hlen

/-- The decoder reads the format's bytes and no more. -/
theorem decode_take (f : Format) (bytes : List Byte) : decode f (bytes.take f.size) = decode f bytes := by
  cases f <;> rcases bytes with _ | ⟨b, _ | ⟨d, rest⟩⟩ <;> rfl

theorem size_le_two (f : Format) : f.size ≤ 2 := by cases f <;> decide

theorem decode_of_short {f : Format} {bytes : List Byte} (h : bytes.length < f.size) :
    decode f bytes = .error (.tooShort f) := by
  rcases bytes with _ | ⟨b, _ | ⟨d, rest⟩⟩
  · cases f <;> rfl
  · cases f with
    | note | firstwave | noteadj | action => exact absurd h (lt_irrefl 1)
    | cmd | wave | pulse | filter | slide | vibrato | funk => rfl
  · exact absurd (h.trans_le (size_le_two f)) (by simp)

/-- Settles O2: a longer word decodes as its first bytes do. -/
theorem everyWordDecodes : Obligations.EveryWordDecodes := by
  intro f bytes
  split_ifs with hlen
  · exact decode_of_short hlen
  · obtain ⟨i, hdecode, hwf, -⟩ := decode_wf_encode (List.length_take_of_le (not_lt.mp hlen))
    rw [decode_take] at hdecode
    exact ⟨i, hdecode, hwf, decode_format hdecode⟩

/-- Settles O3: `decode_wf_encode`, as a word decodes to one instruction only. -/
theorem onlyIgnoredBitsAreLost : Obligations.OnlyIgnoredBitsAreLost := by
  intro f bytes i hlen hdecode
  obtain ⟨j, hj, -, hencode⟩ := decode_wf_encode hlen
  rw [Except.ok.inj (hdecode.symm.trans hj), hencode]

/-- Settles O4: the decoder computes each word. -/
theorem listedWordsDecode : Obligations.ListedWordsDecode :=
  ⟨rfl, rfl, rfl, rfl, rfl, rfl, rfl, rfl, rfl, rfl, rfl, rfl, rfl, rfl, rfl⟩

end Sys2Proof.Machine
end

section
/-! SUPPORT. What a step inside a tick runs, and the phases of a channel's step that fetch nothing (R151, R152, R153). -/

namespace Sys2Proof.Machine

/-! ## The step inside a tick -/

section
variable {s : State}

theorem microStep_of_nothing (hp : s.phase ≠ .idle) (hf : fetch s = .nothing) : microStep s = advance s :=
  (if_neg hp).trans (by rw [hf])

theorem microStep_of_word {f : Format} {bytes : List Byte} {i : Instr} (hp : s.phase ≠ .idle)
    (hf : fetch s = .word f bytes) (hd : decode f bytes = .ok i) :
    microStep s = afterExec s.phase (perform i (beforeExec s)) :=
  (if_neg hp).trans (by rw [hf]; dsimp only; rw [hd])

/-- Inside a tick the host is not read (R85). -/
theorem fetch_ne_host (hp : s.phase ≠ .idle) (h : HostCall) : fetch s ≠ .host h := by
  have hentry : ∀ k f p, fetchEntry k f p s ≠ .host h := by
    intro k f p; unfold fetchEntry; split_ifs <;> exact Fetched.noConfusion
  unfold fetch
  cases hphase : s.phase with
  | idle => exact absurd hphase hp
  | filter | waveExec | pulseExec => exact hentry _ _ _
  | tickNEffects =>
    dsimp only
    unfold fetchEffect
    split_ifs
    · exact hentry _ _ _
    · exact Fetched.noConfusion
    · exact hentry _ _ _
    · exact hentry _ _ _
    · exact Fetched.noConfusion
  | getNewNotes => dsimp only; unfold fetchRow; split_ifs <;> exact Fetched.noConfusion
  | actions | noteStart | dispatch | sharedOut | enter | tickN | tick0 | nextChannel => exact Fetched.noConfusion

theorem step_of_fetch_nothing (hr : s.resetWaiting = false) (hp : s.phase ≠ .idle) (hf : fetch s = .nothing) :
    step s = .next (advance s) := by
  have hserve : serveOrAdvance s = .next (advance s) := by
    unfold serveOrAdvance
    split
    · next hidle _ => exact absurd hidle hp
    · rfl
  unfold step
  split
  · next rest hreq => simp [State.resetWaiting, hreq] at hr
  · simp only [hf, hserve]

/-- Inside a tick a step is one phase, and always completes. -/
theorem step_inside_tick (hr : s.resetWaiting = false) (hp : s.phase ≠ .idle) : step s = .next (microStep s) := by
  cases hf : fetch s with
  | nothing => rw [step_of_fetch_nothing hr hp hf, microStep_of_nothing hp hf]
  | host h => exact absurd hf (fetch_ne_host hp h)
  | word f bytes =>
    obtain ⟨i, hd⟩ := fetched_word_decodes hf
    rw [step_of_fetch_word hr hf hd, exec_eq_perform i f (decode_format hd), onNext_next, microStep_of_word hp hf hd]

end

/-! ## The phases that fetch nothing -/

section
variable {s : State}

theorem microStep_sharedOut (h : s.phase = .sharedOut) :
    microStep s = { writeShared s with chan := .c0, phase := .enter } := by
  cases s; cases h; rfl

theorem microStep_enter (h : s.phase = .enter) : microStep s = enterChannel s := by
  cases s; cases h; rfl

theorem microStep_tickN (h : s.phase = .tickN) : microStep s = (tickN s).goto .waveExec := by
  cases s; cases h; rfl

theorem microStep_tick0 (h : s.phase = .tick0) : microStep s = tick0 s := by
  cases s; cases h; rfl

theorem microStep_nextChannel (h : s.phase = .nextChannel) : microStep s = nextChannel s := by
  cases s; cases h; rfl

end

/-! ## Frames -/

theorem OnlyChannel.refl (s : State) : OnlyChannel s s := (OnlyChannelOf.refl s.chan [] s).2

theorem OnlyChannel.trans {s t u : State} (h : OnlyChannel s t) (k : OnlyChannel t u) : OnlyChannel s u := by
  obtain ⟨hplace, hothers, hshared, hcontrol, himage, hcells⟩ := h
  obtain ⟨kplace, kothers, kshared, kcontrol, kimage, kcells⟩ := k
  exact ⟨hplace.trans kplace, hothers.trans (hplace.1 ▸ kothers), hshared.trans kshared, hcontrol.trans kcontrol,
    himage.trans kimage, hcells.trans kcells⟩

/-- A transfer to a phase changes nothing that a frame speaks of. -/
theorem goto_onlyChannel (s : State) (p : Phase) : OnlyChannel s (s.goto p) :=
  ⟨⟨rfl, rfl⟩, fun d _ => goto_ch s p d, ⟨rfl, rfl, rfl, rfl, rfl, rfl, rfl, rfl⟩, ⟨rfl, rfl, rfl, rfl⟩,
    fun _ _ => rfl, fun _ => rfl, rfl⟩

/-- A raise changes `FATAL` and `ACTION` only, so a change of the channel being stepped before it is framed with it. -/
theorem OnlyChannel.raise {s t : State} (h : OnlyChannel s t) (b : Bool) (k : Cause) :
    OnlyChannelOrRaise b k s (raiseFatalIf b k t) := by
  obtain ⟨hplace, hothers, hshared, ⟨hplaying, haction, hfatal, hloop⟩, himage, hcells⟩ := h
  obtain ⟨⟨kplaying, kloop, kfatal, kaction⟩, kchannels, kshared, kreg, kmem, kplace, -⟩ := raiseFatalIf_spec b k t
  exact ⟨hplace.trans kplace, fun d hd => (kchannels d).trans (hothers d hd), hshared.trans kshared,
    ⟨kplaying.trans hplaying, kloop.trans hloop, hfatal ▸ kfatal, haction ▸ kaction⟩,
    himage.trans (sameImage_of_reg kreg), hcells.trans (sameCells_of_mem kmem (raiseFatalIf_freqRom ..))⟩

/-! ## Enter (R151) -/

theorem enterChannel_spec (s : State) :
    (enterChannel s).ch s.chan = { s.ch s.chan with tick := (s.ch s.chan).tick - 1#8 } ∧
    OnlyChannel s (enterChannel s) ∧
    (enterChannel s).phase = if (s.ch s.chan).tick - 1#8 = 0x00#8 then .tick0 else .tickN :=
  ⟨(goto_ch ..).trans (modCur_ch_self ..), (modCur_onlyChannel ..).1.trans (goto_onlyChannel ..), rfl⟩

/-- Settles O20. -/
theorem enterDecrementsTheTickCounter : Obligations.EnterDecrementsTheTickCounter := by
  intro s hp hr
  have hstep : step s = .next (enterChannel s) := by
    rw [step_inside_tick hr (by simp [hp]), microStep_enter hp]
  exact ⟨_, hstep, enterChannel_spec s⟩

/-! ## Tick N (R152) -/

theorem tickWrapped_iff (t : Byte) : tickWrapped t = true ↔ 0x80#8 ≤ t := decide_eq_true_iff

theorem tickN_of_not_wrapped {s : State} (h : ¬ 0x80#8 ≤ (s.ch s.chan).tick) : tickN s = s :=
  if_neg (mt (tickWrapped_iff _).mp h)

/-- The reload from the tempo, or from the funk slot the tempo names (R152). -/
theorem reload_eq (s : State) (x : Channel) :
    reload s x =
      (if 2#8 ≤ x.tempo then x.tempo else if x.tempo = 0x00#8 then s.funk0 else s.funk1,
       if 2#8 ≤ x.tempo then x.tempo else x.tempo ^^^ 1#8) := by
  unfold reload funkPath
  by_cases h : 2#8 ≤ x.tempo
  · have hlt : ¬ x.tempo < 2#8 := by bv_omega
    simp only [h, hlt, decide_false, Bool.false_eq_true, if_false, if_true]
  · have hlt : x.tempo < 2#8 := by bv_omega
    simp only [h, hlt, decide_true, if_true, if_false]

/-- What a reload of the tick counter writes, and when it raises (R152). -/
theorem tickN_of_wrapped {s : State} (h : 0x80#8 ≤ (s.ch s.chan).tick) :
    let x := s.ch s.chan
    let v := if 2#8 ≤ x.tempo then x.tempo else if x.tempo = 0x00#8 then s.funk0 else s.funk1
    (tickN s).ch s.chan = { x with tick := v, tempo := if 2#8 ≤ x.tempo then x.tempo else x.tempo ^^^ 1#8 } ∧
    OnlyChannelOrRaise (decide (v < x.gatetimer.setWidth 8)) .gatetimerExceedsTick s (tickN s) ∧
    (tickN s).phase = s.phase := by
  have hn : tickN s = raiseFatalIf (decide ((reload s s.cur).1 < s.cur.gatetimer.setWidth 8)) .gatetimerExceedsTick
      (s.modCur fun x => { x with tick := (reload s x).1, tempo := (reload s x).2 }) :=
    if_pos ((tickWrapped_iff _).mpr h)
  obtain ⟨honly, hphase⟩ := modCur_onlyChannel (fun x => { x with tick := (reload s x).1, tempo := (reload s x).2 }) s
  rw [hn]
  obtain ⟨-, -, -, -, -, -, kphase⟩ := raiseFatalIf_spec (decide ((reload s s.cur).1 < s.cur.gatetimer.setWidth 8))
    .gatetimerExceedsTick (s.modCur fun x => { x with tick := (reload s x).1, tempo := (reload s x).2 })
  refine ⟨?_, ?_, kphase.trans hphase⟩
  · rw [raiseFatalIf_ch, modCur_ch_self, reload_eq]
  · have hraise := honly.raise (decide ((reload s s.cur).1 < s.cur.gatetimer.setWidth 8)) .gatetimerExceedsTick
    rw [reload_eq] at hraise ⊢
    exact hraise

/-- Settles O21, by whether the counter has wrapped. -/
theorem tickNReloads : Obligations.TickNReloads := by
  intro s hp hr x v wrapped
  have hstep : step s = .next ((tickN s).goto .waveExec) := by
    rw [step_inside_tick hr (by simp [hp]), microStep_tickN hp]
  refine ⟨_, hstep, rfl, ?_⟩
  by_cases hw : wrapped
  · obtain ⟨hch, hframe, -⟩ := tickN_of_wrapped hw
    have hcause : decide (wrapped ∧ v < x.gatetimer.setWidth 8) = decide (v < x.gatetimer.setWidth 8) :=
      decide_eq_decide.mpr (and_iff_right hw)
    rw [if_pos hw, hcause]
    exact ⟨(goto_ch ..).trans hch, hframe.trans (goto_onlyChannel ..)⟩
  · have hcause : decide (wrapped ∧ v < x.gatetimer.setWidth 8) = false := decide_eq_false fun h => hw h.1
    rw [if_neg hw, hcause, tickN_of_not_wrapped hw]
    exact ⟨goto_ch .., (OnlyChannel.refl s).raise false .gatetimerExceedsTick |>.trans (goto_onlyChannel ..)⟩

/-! ## Tick 0 (R153) -/

theorem endOfPattern_eq (s : State) :
    endOfPattern s =
      if s.playing = true ∧ (s.ch s.chan).pattrow = 0xFF#8 then
        (if s.loopPattern = true then s.setCh s.chan { s.ch s.chan with pattrow := 0x00#8 } else sequencer s.chan s)
      else s := rfl

theorem sequencer_chan_mem (c : Chan) (s : State) :
    (sequencer c s).chan = s.chan ∧ (sequencer c s).mem = s.mem :=
  ⟨(raiseFatalIf_chan ..).trans (modCh_chan ..), (raiseFatalIf_mem ..).trans (modCh_mem ..)⟩

theorem endOfPattern_chan_mem (s : State) :
    (endOfPattern s).chan = s.chan ∧ (endOfPattern s).mem = s.mem := by
  rw [endOfPattern_eq]
  split_ifs
  · exact ⟨setCh_chan .., setCh_mem ..⟩
  · exact sequencer_chan_mem s.chan s
  · exact ⟨rfl, rfl⟩

/-- The channel after the second and third step of tick 0 (R174, R176). -/
def Channel.noteTaken (s : State) (x : Channel) : Channel :=
  let y := { x with gatetimer := (s.instrByte x.instr .gatetimer).setWidth 6 }
  if x.nnPend = true then
    { y with note := x.newnote - 0x60#8, command := 0#4, vibdelay := s.instrByte x.instr .vibdelay,
             cmddata := s.instrByte x.instr .ptrSpeed }
  else y

theorem noteTaken_congr {s t : State} (h : t.mem = s.mem) (x : Channel) : x.noteTaken t = x.noteTaken s := by
  simp only [Channel.noteTaken, State.instrByte, h]

/-- Neither step changes what decides where tick 0 goes on. -/
theorem noteTaken_pending (s : State) (x : Channel) :
    (x.noteTaken s).nnPend = x.nnPend ∧ (x.noteTaken s).newcommand = x.newcommand := by
  unfold Channel.noteTaken
  dsimp only
  split_ifs <;> exact ⟨rfl, rfl⟩

theorem modCur_modCur (s : State) (f g : Channel → Channel) :
    (s.modCur f).modCur g = s.modCur fun x => g (f x) := by
  cases s with | mk => rename_i c _; cases c <;> rfl

/-- An update of the channel being stepped depends on that channel only. -/
theorem modCur_congr {s : State} {f g : Channel → Channel} (h : f s.cur = g s.cur) : s.modCur f = s.modCur g :=
  congrArg (s.setCh s.chan) h

/-- The second and third step of tick 0 are one update of the channel. -/
theorem consumeNote_reloadGatetimer (u : State) :
    consumeNote (reloadGatetimer u) = u.modCur (Channel.noteTaken u) := by
  have hpend : (reloadGatetimer u).cur.nnPend = u.cur.nnPend := by rw [reloadGatetimer, modCur_cur]
  have hbyte : ∀ i f, (reloadGatetimer u).instrByte i f = u.instrByte i f := fun i f =>
    congrArg (Memory.read · (instrAddr i f)) (modCur_mem ..)
  unfold consumeNote
  simp only [hpend, hbyte]
  split_ifs with h
  · rw [reloadGatetimer, modCur_modCur]
    exact modCur_congr (if_pos h).symm
  · exact modCur_congr (if_neg h).symm

/-- A note that is not led into by a tone-portamento is started (R176). -/
theorem startsNote_iff (x : Channel) :
    (x.nnPend && !isTonePorta x.newcommand) = true ↔ x.nnPend = true ∧ x.newcommand ≠ 3#4 := by
  simp [isTonePorta]

/-- What tick 0 does after the end of the pattern has been handled (R153). -/
theorem tick0_spec (s : State) :
    let u := endOfPattern s
    (tick0 s).ch s.chan = (u.ch s.chan).noteTaken s ∧ OnlyChannel u (tick0 s) ∧
    (tick0 s).phase =
      if (u.ch s.chan).nnPend = true ∧ (u.ch s.chan).newcommand ≠ 3#4 then .noteStart else .dispatch := by
  intro u
  have hu : endOfPattern s = u := rfl
  obtain ⟨hchan, hmem⟩ : u.chan = s.chan ∧ u.mem = s.mem := endOfPattern_chan_mem s
  have htaken : ∀ x : Channel, x.noteTaken u = x.noteTaken s := noteTaken_congr hmem
  obtain ⟨hpend, hcommand⟩ := noteTaken_pending s (u.ch s.chan)
  obtain ⟨honly, -⟩ := modCur_onlyChannel (Channel.noteTaken u) u
  have hcur : (u.modCur (Channel.noteTaken u)).cur = (u.ch s.chan).noteTaken s := by
    rw [modCur_cur, htaken, State.cur, hchan]
  have htick : tick0 s = (u.modCur (Channel.noteTaken u)).goto
      (if (u.ch s.chan).nnPend = true ∧ (u.ch s.chan).newcommand ≠ 3#4 then .noteStart else .dispatch) := by
    simp only [tick0, hu, consumeNote_reloadGatetimer, startsNote_iff, hcur, hpend, hcommand]
  rw [htick]
  refine ⟨?_, honly.trans (goto_onlyChannel ..), rfl⟩
  rw [goto_ch, ← hchan, modCur_ch_self, htaken]

/-- Settles O23: `tick0_spec`, the end of the pattern being the `u` of the statement. -/
theorem tickZeroReloadsAndTakesTheNote : Obligations.TickZeroReloadsAndTakesTheNote := by
  intro s hp hr
  have hstep : step s = .next (tick0 s) := by rw [step_inside_tick hr (by simp [hp]), microStep_tick0 hp]
  exact ⟨_, hstep, tick0_spec s⟩

end Sys2Proof.Machine
end

section
/-! SUPPORT. The transport actions (R141 to R144), channel by channel and then over the three channels. -/

namespace Sys2Proof.Machine

/-! ## An operation on one channel, and on the three in their order -/

/-- An operation has left channel `c` as `x`, and every other channel, the shared registers, the cells and the place in
the tick alone. What it does to the control registers and to the image is not said here. -/
def ChannelDone (c : Chan) (x : Channel) (s t : State) : Prop :=
  t.ch c = x ∧ SameOthers c s t ∧ SameShared s t ∧ t.mem = s.mem ∧ t.freqRom = s.freqRom ∧ SamePlace s t ∧
  t.phase = s.phase

/-- The three channels are left as `g` says, and the shared registers, the cells and the place in the tick alone. -/
def ChannelsDone (g : Chan → Channel) (s t : State) : Prop :=
  (∀ c, t.ch c = g c) ∧ SameShared s t ∧ t.mem = s.mem ∧ t.freqRom = s.freqRom ∧ SamePlace s t ∧ t.phase = s.phase

theorem SameShared.refl (s : State) : SameShared s s := ⟨rfl, rfl, rfl, rfl, rfl, rfl, rfl, rfl⟩

theorem modCh_done (c : Chan) (f : Channel → Channel) (s : State) : ChannelDone c (f (s.ch c)) s (s.modCh c f) := by
  obtain ⟨hphase, hplace, hothers, hshared, -, -, -, hrom⟩ := modCh_onlyChannelOf c [] f s
  exact ⟨modCh_ch_self .., hothers, hshared, modCh_mem .., hrom, hplace, hphase⟩

section
variable {c : Chan} {x y : Channel} {s t u : State}

theorem ChannelDone.self (h : ChannelDone c x s t) : t.ch c = x := h.1

theorem ChannelDone.others (h : ChannelDone c x s t) : SameOthers c s t := h.2.1

theorem ChannelDone.mem (h : ChannelDone c x s t) : t.mem = s.mem := h.2.2.2.1

theorem ChannelDone.trans (h : ChannelDone c x s t) (k : ChannelDone c y t u) : ChannelDone c y s u := by
  obtain ⟨-, hothers, hshared, hmem, hrom, hplace, hphase⟩ := h
  obtain ⟨kself, kothers, kshared, kmem, krom, kplace, kphase⟩ := k
  exact ⟨kself, hothers.trans kothers, hshared.trans kshared, kmem.trans hmem, krom.trans hrom, hplace.trans kplace,
    kphase.trans hphase⟩

end

/-- An operation that looks at the cells and at its own channel only does to each channel what it does to it first. -/
theorem threeChannels_done {f : Chan → State → State} {g : Chan → State → Channel} {s : State}
    (hf : ∀ c t, t.mem = s.mem → ChannelDone c (g c t) t (f c t))
    (hg : ∀ c t, t.mem = s.mem → t.ch c = s.ch c → g c t = g c s) :
    ChannelsDone (fun c => g c s) s (f .c2 (f .c1 (f .c0 s))) := by
  obtain ⟨hself0, hothers0, hshared0, hmem0, hrom0, hplace0, hphase0⟩ := hf .c0 s rfl
  obtain ⟨hself1, hothers1, hshared1, hmem1, hrom1, hplace1, hphase1⟩ := hf .c1 _ hmem0
  have hmem01 := hmem1.trans hmem0
  obtain ⟨hself2, hothers2, hshared2, hmem2, hrom2, hplace2, hphase2⟩ := hf .c2 _ hmem01
  have hch1 : (f .c0 s).ch .c1 = s.ch .c1 := hothers0 .c1 (by decide)
  have hch2 : (f .c1 (f .c0 s)).ch .c2 = s.ch .c2 := (hothers1 .c2 (by decide)).trans (hothers0 .c2 (by decide))
  refine ⟨fun c => ?_, hshared0.trans (hshared1.trans hshared2), hmem2.trans hmem01, hrom2.trans (hrom1.trans hrom0),
    hplace0.trans (hplace1.trans hplace2), hphase2.trans (hphase1.trans hphase0)⟩
  cases c with
  | c0 => exact (hothers2 .c0 (by decide)).trans ((hothers1 .c0 (by decide)).trans hself0)
  | c1 => exact (hothers2 .c1 (by decide)).trans (hself1.trans (hg .c1 _ hmem0 hch1))
  | c2 => exact hself2.trans (hg .c2 _ hmem01 hch2)

/-! ## Start (R142) -/

/-- The start order row of the channel names an illegal pattern (R108). -/
def startIllegal (c : Chan) (s : State) : Bool := decide (208#8 ≤ s.orderPatt c (startIndex c s))

/-- A channel after the sequencer run of a Start, which reads its start order row (R142, R170). -/
def sequencedAtStart (c : Chan) (s : State) : Channel :=
  let row := startIndex c s
  { s.ch c with
    curOrder := row, trans := s.orderTrans c row
    pattnum := if 208#8 ≤ s.orderPatt c row then 0x00#8 else s.orderPatt c row
    songptr := if row + 1#8 < s.songLen then row + 1#8 else if s.songLoop < s.songLen then s.songLoop else 0x00#8
    pattrow := 0x00#8 }

/-- What a Start does to a channel after its sequencer run (R142). -/
def Channel.startedIn (s : State) (x : Channel) : Channel :=
  { x with
    pattrow := startRowBounded x s
    command := 0#4, cmddata := 0x00#8, newcommand := 0#4, newcmddata := 0x00#8, nnPend := false
    wavePtr := 0x00#8, wavetime := 0x00#8, pulsePtr := 0x00#8, pulsetime := 0x00#8
    tick := Config.initTick
    gatetimer := gatetimerCount (s.instrByte x.instr .gatetimer) }

theorem startIndex_congr {s t : State} {c : Chan} (hm : t.mem = s.mem) (hc : t.ch c = s.ch c) :
    startIndex c t = startIndex c s := by
  unfold startIndex State.songLen
  rw [hm, hc]

theorem startIllegal_congr {s t : State} {c : Chan} (hm : t.mem = s.mem) (hc : t.ch c = s.ch c) :
    startIllegal c t = startIllegal c s := by
  unfold startIllegal State.orderPatt
  rw [startIndex_congr hm hc, hm]

theorem sequencedAtStart_congr {s t : State} {c : Chan} (hm : t.mem = s.mem) (hc : t.ch c = s.ch c) :
    sequencedAtStart c t = sequencedAtStart c s := by
  unfold sequencedAtStart State.orderPatt State.orderTrans State.songLen State.songLoop
  rw [startIndex_congr hm hc, hm, hc]

theorem startedIn_congr {s t : State} (hm : t.mem = s.mem) (x : Channel) : x.startedIn t = x.startedIn s := by
  unfold Channel.startedIn startRowBounded State.pattLen State.instrByte
  rw [hm]

/-- In a song that is not empty the start row lies in the order list, so the sequencer reads it (R170). -/
theorem orderIndex_start {c : Chan} {s : State} (h : s.songLen ≠ 0x00#8) :
    orderIndex c (s.modCh c fun x => { x with songptr := startIndex c s }) = startIndex c s := by
  have hlt : ¬ s.songLen ≤ startIndex c s := by
    unfold startIndex
    split_ifs with hstart
    · exact BitVec.not_le.mpr hstart
    · bv_omega
  have hlen : (s.modCh c fun x => { x with songptr := startIndex c s }).songLen = s.songLen :=
    congrArg (Memory.read · songLenAddr) (modCh_mem ..)
  rw [orderIndex, modCh_ch_self, hlen, if_neg hlt]

theorem orderIllegal_start {c : Chan} {s : State} (h : s.songLen ≠ 0x00#8) :
    orderIllegal c (s.modCh c fun x => { x with songptr := startIndex c s }) = startIllegal c s := by
  unfold orderIllegal startIllegal State.orderPatt
  rw [orderIndex_start h, modCh_mem]; rfl

/-- The order row after the start row, as the sequencer leaves the song cursor (R170). -/
theorem nextOrder_start (c : Chan) (s : State) :
    (if s.songLen ≤ startIndex c s + 1#8 then orderWrap s else startIndex c s + 1#8) =
      if startIndex c s + 1#8 < s.songLen then startIndex c s + 1#8
      else if s.songLoop < s.songLen then s.songLoop else 0x00#8 := by
  by_cases hlt : startIndex c s + 1#8 < s.songLen
  · rw [if_pos hlt, if_neg (BitVec.not_le.mpr hlt)]
  · rw [if_neg hlt, if_pos (BitVec.not_lt.mp hlt)]; rfl

theorem pattnum_start (c : Chan) (s : State) :
    (if startIllegal c s then 0x00#8 else s.orderPatt c (startIndex c s)) =
      if 208#8 ≤ s.orderPatt c (startIndex c s) then 0x00#8 else s.orderPatt c (startIndex c s) :=
  if_congr decide_eq_true_iff rfl rfl

/-- The order list reads alike in states with the same cells. -/
theorem orderList_congr {s t : State} (h : t.mem = s.mem) :
    t.songLen = s.songLen ∧ t.orderTrans = s.orderTrans ∧ t.orderPatt = s.orderPatt ∧ orderWrap t = orderWrap s := by
  unfold orderWrap State.songLen State.songLoop
  refine ⟨by rw [h], funext fun c => funext fun i => ?_, funext fun c => funext fun i => ?_, by rw [h]⟩
  · exact congrArg (Memory.read · (orderTransAddr c i)) h
  · exact congrArg (Memory.read · (orderPattAddr c i)) h

/-- The sequencer run of a Start, the song cursor having been put at the start row (R142). -/
theorem sequencer_start {c : Chan} {s : State} (h : s.songLen ≠ 0x00#8) :
    let t := sequencer c (s.modCh c fun x => { x with songptr := startIndex c s })
    ChannelDone c (sequencedAtStart c s) s t ∧ ControlAfter (startIllegal c s) .illegalPattern s t ∧
    t.reg = s.reg := by
  have hplaced := modCh_done c (fun x => { x with songptr := startIndex c s }) s
  obtain ⟨-, -, -, -, ⟨hplaying, haction, hfatal, hloop⟩, -⟩ :=
    modCh_onlyChannelOf c [] (fun x => { x with songptr := startIndex c s }) s
  obtain ⟨kch, kothers, kshared, ⟨kplaying, kloop, kfatal, kaction⟩, kreg, kmem, kplace, kphase⟩ :=
    sequencer_spec c (s.modCh c fun x => { x with songptr := startIndex c s })
  obtain ⟨hlen, htrans, hpatt, hwrap⟩ := orderList_congr hplaced.mem
  rw [orderIllegal_start h] at kfatal kaction
  rw [orderIndex_start h, orderIllegal_start h, modCh_ch_self, hlen, htrans, hpatt, hwrap, nextOrder_start,
    pattnum_start] at kch
  exact ⟨hplaced.trans ⟨kch, kothers, kshared, kmem, sequencer_freqRom .., kplace, kphase⟩,
    ⟨kplaying.trans hplaying, kloop.trans hloop, hfatal ▸ kfatal, haction ▸ kaction⟩, kreg.trans (modCh_reg ..)⟩

/-- What a Start does to one channel: it plays from its start position (R142). -/
theorem startChannel_spec {c : Chan} {s : State} (h : s.songLen ≠ 0x00#8) :
    ChannelDone c ((sequencedAtStart c s).startedIn s) s (startChannel c s) ∧
    ControlAfter (startIllegal c s) .illegalPattern s (startChannel c s) ∧ (startChannel c s).reg = s.reg := by
  obtain ⟨hsequenced, hcontrol, hreg⟩ := sequencer_start (c := c) h
  have hstart : startChannel c s = State.modCh _ c (Channel.startedIn _) := rfl
  rw [hstart]
  generalize sequencer c (s.modCh c fun x => { x with songptr := startIndex c s }) = t at *
  have hstarted := modCh_done c (Channel.startedIn t) t
  obtain ⟨-, -, -, -, kcontrol, -⟩ := modCh_onlyChannelOf c [] (Channel.startedIn t) t
  rw [hsequenced.self, startedIn_congr hsequenced.mem] at hstarted
  exact ⟨hsequenced.trans hstarted, hcontrol.trans kcontrol, (modCh_reg ..).trans hreg⟩

/-- Two rules that may raise the same cause raise it if either does. -/
theorem ControlAfter.raiseAgain {b b' : Bool} {k : Cause} {s t u : State} (h : ControlAfter b k s t)
    (h' : ControlAfter b' k t u) : ControlAfter (b || b') k s u := by
  obtain ⟨hplaying, hloop, hfatal, haction⟩ := h
  obtain ⟨kplaying, kloop, kfatal, kaction⟩ := h'
  refine ⟨kplaying.trans hplaying, kloop.trans hloop, ?_, ?_⟩
  · rw [kfatal, hfatal]
    cases b <;> cases b' <;> simp [BitVec.or_assoc]
  · rw [kaction, haction]
    cases b <;> cases b' <;> rfl

/-- A Start of the three channels: an illegal pattern number on any of them raises the cause (R142, R170). -/
theorem startChannels_spec {s : State} (h : s.songLen ≠ 0x00#8) :
    let t := startChannel .c2 (startChannel .c1 (startChannel .c0 s))
    ChannelsDone (fun c => (sequencedAtStart c s).startedIn s) s t ∧
    ControlAfter ((startIllegal .c0 s || startIllegal .c1 s) || startIllegal .c2 s) .illegalPattern s t ∧
    t.reg = s.reg := by
  have hlen : ∀ t : State, t.mem = s.mem → t.songLen ≠ 0x00#8 := fun t ht => (orderList_congr ht).1 ▸ h
  obtain ⟨h0, hcontrol0, hreg0⟩ := startChannel_spec (c := .c0) h
  obtain ⟨h1, hcontrol1, hreg1⟩ := startChannel_spec (c := .c1) (hlen _ h0.mem)
  obtain ⟨h2, hcontrol2, hreg2⟩ := startChannel_spec (c := .c2) (hlen _ (h1.mem.trans h0.mem))
  rw [startIllegal_congr h0.mem (h0.others .c1 (by decide))] at hcontrol1
  rw [startIllegal_congr (h1.mem.trans h0.mem)
    ((h1.others .c2 (by decide)).trans (h0.others .c2 (by decide)))] at hcontrol2
  refine ⟨threeChannels_done (fun c t ht => (startChannel_spec (hlen t ht)).1) fun c t ht hc => ?_,
    (hcontrol0.raiseAgain hcontrol1).raiseAgain hcontrol2, hreg2.trans (hreg1.trans hreg0)⟩
  rw [startedIn_congr ht, sequencedAtStart_congr ht hc]

theorem exists_startIllegal_iff (s : State) :
    ((startIllegal .c0 s || startIllegal .c1 s) || startIllegal .c2 s) = true ↔
      ∃ c, 208#8 ≤ s.orderPatt c (startIndex c s) := by
  simp only [Bool.or_eq_true, startIllegal, decide_eq_true_eq]
  constructor
  · rintro ((h | h) | h) <;> exact ⟨_, h⟩
  · rintro ⟨c, h⟩
    cases c with
    | c0 => exact .inl (.inl h)
    | c1 => exact .inl (.inr h)
    | c2 => exact .inr h

theorem startSong_of_empty {s : State} (h : s.songLen = 0x00#8) :
    startSong s = { s with fatal := 0x40#7, action := 3#2 } := by
  simp only [startSong, h, if_true, raiseFatal, causeBit, BitVec.zero_or]

/-- A Start with a song: the shared registers first, then the channels, then the mode (R142). -/
theorem startSong_of_song {s : State} (h : s.songLen ≠ 0x00#8) :
    startSong s =
      { startChannel .c2 (startChannel .c1 (startChannel .c0 (startShared { s with fatal := 0#7 }))) with
        playing := true } := by
  simp only [startSong, h, if_false]

/-- The mode is no channel's. -/
theorem setPlaying_ch (b : Bool) (s : State) (c : Chan) : { s with playing := b }.ch c = s.ch c := by cases c <;> rfl

/-- A Start of a song: the three channels, after `FATAL` and the shared registers have been cleared (R142). -/
theorem startSong_spec {s : State} (h : s.songLen ≠ 0x00#8) :
    let bad := ∃ c, 208#8 ≤ s.orderPatt c (startIndex c s)
    let t := startSong s
    (∀ c, t.ch c = (sequencedAtStart c s).startedIn s) ∧ SameShared (startShared s) t ∧ t.playing = true ∧
    t.loopPattern = s.loopPattern ∧ (bad → t.fatal = 0x01#7 ∧ t.action = 3#2) ∧
    (¬ bad → t.fatal = 0#7 ∧ t.action = s.action) ∧ SamePlace s t ∧ t.reg = s.reg ∧ t.mem = s.mem ∧
    t.freqRom = s.freqRom ∧ t.phase = s.phase := by
  have hsong := startSong_of_song h
  obtain ⟨⟨hch, hshared, hmem, hrom, hplace, hphase⟩, ⟨-, hloop, hfatal, haction⟩, hreg⟩ :=
    startChannels_spec (s := startShared { s with fatal := 0#7 }) h
  have hbad := exists_startIllegal_iff (startShared { s with fatal := 0#7 })
  intro bad t
  have ht : t = _ := hsong
  generalize startChannel .c2 (startChannel .c1 (startChannel .c0 (startShared { s with fatal := 0#7 }))) = u at *
  rw [ht]
  refine ⟨fun c => (setPlaying_ch ..).trans (hch c), hshared, rfl, hloop, fun hb => ?_, fun hb => ?_, hplace, hreg, hmem,
    hrom, hphase⟩
  · rw [hbad.mpr hb, if_pos rfl] at hfatal haction
    exact ⟨hfatal.trans (BitVec.zero_or (x := 0x01#7)), haction⟩
  · rw [Bool.eq_false_iff.mpr (mt hbad.mp hb), if_neg Bool.false_ne_true] at hfatal haction
    exact ⟨hfatal, haction⟩

/-- Settles O51, by whether the song is empty. -/
theorem startAction : Obligations.StartAction := by
  intro s
  refine ⟨rfl, _, rfl, ?_⟩
  by_cases hempty : s.songLen = 0x00#8
  · rw [if_pos hempty]
    exact startSong_of_empty hempty
  · obtain ⟨hch, ⟨hptr, htime, htype, hcutoff, hctrl, hfader, hfunk0, hfunk1⟩, hplaying, hloop, hbad, hlegal, hplace,
      hreg, hmem, hrom, hphase⟩ := startSong_spec hempty
    rw [if_neg hempty]
    exact ⟨hptr, htime, htype, hctrl, hcutoff, hfader, hfunk0, hfunk1, hplaying, hloop, hbad, hlegal, hplace,
      sameImage_of_reg hreg, sameCells_of_mem hmem hrom, hphase, hch⟩

/-! ## Pause and Stop (R143, R144) -/

/-- A channel after a release (R143). -/
def Channel.released (x : Channel) : Channel :=
  { x with gate := 0xFE#8, nnPend := false, command := 0#4, cmddata := 0x00#8, newcommand := 0#4,
           newcmddata := 0x00#8 }

/-- The image after the release of channel `c`: its envelope bytes are those of the fast release, the others as
before (R143). -/
def ReleasedImage (c : Chan) (s t : State) : Prop :=
  ∀ a, t.regAt a = if a = regIdx c 5 then 0x0F#8 else if a = regIdx c 6 then 0x00#8 else s.regAt a

theorem release_done (c : Chan) (s : State) :
    ChannelDone c (s.ch c).released s (release c s) ∧ SameControl s (release c s) ∧
    ReleasedImage c s (release c s) := by
  obtain ⟨hch, hothers, hshared, hcontrol, had, hsr, himage, hmem, hplace⟩ := release_spec c s
  refine ⟨⟨hch, hothers, hshared, hmem, release_freqRom c s, hplace, by cases c <;> rfl⟩, hcontrol, fun a => ?_⟩
  split_ifs with h5 h6
  · exact h5 ▸ had
  · exact h6 ▸ hsr
  · exact himage a (by simp [h5, h6])

/-- A channel whose position has become its start position (R143). -/
def Channel.positionKept (x : Channel) : Channel :=
  { x with
    startOrder := if x.pattrow = 0xFF#8 then x.songptr else x.curOrder
    startRow := if x.pattrow = 0xFF#8 then 0x00#8 else x.pattrow }

/-- A channel that a Stop has rewound to the order row `i` (R144). -/
def Channel.rewound (i : Byte) (x : Channel) : Channel :=
  { x with songptr := i, curOrder := i, pattrow := x.startRow }

/-- A Pause keeps the position as the start position and then releases the channel (R143). -/
theorem pauseChannel_spec (c : Chan) (s : State) :
    ChannelDone c (s.ch c).positionKept.released s (pauseChannel c s) ∧ SameControl s (pauseChannel c s) ∧
    ReleasedImage c s (pauseChannel c s) := by
  have hpause : pauseChannel c s = release c (s.modCh c Channel.positionKept) := by
    refine congrArg (fun x => release c (s.setCh c x)) ?_
    by_cases hend : (s.ch c).pattrow = 0xFF#8
    · exact (if_pos hend).trans (by simp only [Channel.positionKept, hend, if_true])
    · exact (if_neg hend).trans (by simp only [Channel.positionKept, hend, if_false])
  have hkept := modCh_done c Channel.positionKept s
  obtain ⟨-, -, -, -, hcontrol, himage, -⟩ := modCh_onlyChannelOf c [] Channel.positionKept s
  obtain ⟨kdone, kcontrol, kimage⟩ := release_done c (s.modCh c Channel.positionKept)
  rw [hkept.self] at kdone
  rw [hpause]
  refine ⟨hkept.trans kdone, hcontrol.trans kcontrol, fun a => ?_⟩
  rw [kimage a, modCh_regAt]

/-- A Stop releases the channel and then rewinds it, without reading an order row (R144). -/
theorem stopChannel_spec (c : Chan) (s : State) :
    ChannelDone c ((s.ch c).released.rewound (startIndex c s)) s (stopChannel c s) ∧
    SameControl s (stopChannel c s) ∧ ReleasedImage c s (stopChannel c s) := by
  obtain ⟨hdone, hcontrol, himage⟩ := release_done c s
  have hrewound := modCh_done c (Channel.rewound (startIndex c s)) (release c s)
  obtain ⟨-, -, -, -, kcontrol, kimage, -⟩ :=
    modCh_onlyChannelOf c [] (Channel.rewound (startIndex c s)) (release c s)
  rw [hdone.self] at hrewound
  exact ⟨hdone.trans hrewound, hcontrol.trans kcontrol, fun a => (kimage a List.not_mem_nil).trans (himage a)⟩

theorem regIdx_inj_iff (c d : Chan) (j k : Fin 7) : regIdx c j = regIdx d k ↔ c = d ∧ j = k := by
  constructor
  · intro h
    have hval : 7 * c.idx + j.val = 7 * d.idx + k.val := congrArg Fin.val h
    have hidx : c.idx = d.idx := by omega
    exact ⟨by rw [← chanAt_idx c, hidx, chanAt_idx], Fin.ext (by omega)⟩
  · rintro ⟨rfl, rfl⟩; rfl

/-- What a Pause and a Stop have in common: every channel released, the mode frozen (R143, R144). -/
def ReleasedAll (s t : State) : Prop :=
  t.playing = false ∧ t.action = s.action ∧ t.fatal = s.fatal ∧
  t.loopPattern = s.loopPattern ∧ SamePlace s t ∧ SameShared s t ∧ SameCells s t ∧ t.phase = s.phase ∧
  (∀ c, t.regAt (regIdx c 5) = 0x0F#8 ∧ t.regAt (regIdx c 6) = 0x00#8) ∧
  (∀ a, (∀ c, a ≠ regIdx c 5 ∧ a ≠ regIdx c 6) → t.regAt a = s.regAt a)

/-- The release of the three channels in their order, and the freeze. -/
theorem releaseAll_spec {f : Chan → State → State} {g : Chan → State → Channel} {s : State}
    (hf : ∀ c t, ChannelDone c (g c t) t (f c t) ∧ SameControl t (f c t) ∧ ReleasedImage c t (f c t))
    (hg : ∀ c t, t.mem = s.mem → t.ch c = s.ch c → g c t = g c s) :
    let t := { f .c2 (f .c1 (f .c0 s)) with playing := false }
    ReleasedAll s t ∧ ∀ c, t.ch c = g c s := by
  obtain ⟨-, hcontrol0, himage0⟩ := hf .c0 s
  obtain ⟨-, hcontrol1, himage1⟩ := hf .c1 (f .c0 s)
  obtain ⟨-, hcontrol2, himage2⟩ := hf .c2 (f .c1 (f .c0 s))
  obtain ⟨hch, hshared, hmem, hrom, hplace, hphase⟩ := threeChannels_done (fun c t _ => (hf c t).1) hg
  obtain ⟨-, haction, hfatal, hloop⟩ := hcontrol0.trans (hcontrol1.trans hcontrol2)
  have himage : ∀ a, (f .c2 (f .c1 (f .c0 s))).regAt a = _ := himage2
  simp only [himage1 _, himage0 _] at himage
  refine ⟨⟨rfl, haction, hfatal, hloop, hplace, hshared, sameCells_of_mem hmem hrom, hphase,
    fun c => ⟨(himage _).trans ?_, (himage _).trans ?_⟩, fun a ha => (himage a).trans ?_⟩,
    fun c => (setPlaying_ch ..).trans (hch c)⟩
  · cases c <;> simp [regIdx_inj_iff]
  · cases c <;> simp [regIdx_inj_iff]
  · simp [ha]

/-- Settles O52: each action is a release of the three channels, with what it does to their positions. -/
theorem pauseAndStopActions : Obligations.PauseAndStopActions := by
  intro s
  refine ⟨⟨_, rfl, releaseAll_spec pauseChannel_spec fun c t _ hc => by rw [hc]⟩,
    ⟨_, rfl, releaseAll_spec stopChannel_spec fun c t hm hc => by rw [hc, startIndex_congr hm hc]⟩⟩

end Sys2Proof.Machine
end

section
/-! SUPPORT. What the commands and the table walkers leave of a channel and of the mode, one lemma per operation of the
model (R155, R331, R340). -/

namespace Sys2Proof.Machine

/-! ## The relation between the states before and after a change -/

/-- The channel with its sound registers, its tempo and its latched command blanked. What is left is its place in the
song, its pending note and command, its tick counter, its gate, and what the host sets. -/
def Channel.score (x : Channel) : Channel :=
  { x with
    freq := 0x0000#16, wave := 0x00#8, pulse := 0x000#12, lastnote := 0#7
    wavePtr := 0x00#8, wavetime := 0x00#8, pulsePtr := 0x00#8, pulsetime := 0x00#8
    vibtime := 0x00#8, vibdelay := 0x00#8, command := 0#4, cmddata := 0x00#8, tempo := 0x00#8 }

/-- `FATAL` and the mailbox after any number of raised causes (R331): with none both are as before. -/
def Raised (s t : State) : Prop :=
  (t.fatal = s.fatal ∧ t.action = s.action) ∨
  ∃ causes : BitVec 7, causes ≠ 0#7 ∧ t.fatal = s.fatal ||| causes ∧ t.action = 3#2

/-- A change that leaves the channel being stepped, the mode, every channel's score and every waveform byte of the image
alone, and touches `FATAL` and the mailbox by raising causes only. The commands and the walkers make only such changes. -/
def Sounds (s t : State) : Prop :=
  t.chan = s.chan ∧ t.playing = s.playing ∧ Raised s t ∧ (∀ c, t.regAt (regIdx c 4) = s.regAt (regIdx c 4)) ∧
  ∀ c, (t.ch c).score = (s.ch c).score

theorem Raised.trans {s t u : State} (h : Raised s t) (k : Raised t u) : Raised s u := by
  rcases h with ⟨hf, ha⟩ | ⟨b, hb, hf, ha⟩ <;> rcases k with ⟨kf, ka⟩ | ⟨b', hb', kf, ka⟩
  · exact .inl ⟨kf.trans hf, ka.trans ha⟩
  · exact .inr ⟨b', hb', hf ▸ kf, ka⟩
  · exact .inr ⟨b, hb, kf.trans hf, ka.trans ha⟩
  · refine .inr ⟨b ||| b', fun h0 => hb (BitVec.or_eq_zero_iff.mp h0).1, ?_, ka⟩
    rw [kf, hf, BitVec.or_assoc]

theorem causeBit_ne_zero (k : Cause) : causeBit k ≠ 0#7 := by cases k <;> decide

theorem Raised.of_controlAfter {b : Bool} {k : Cause} {s t : State} (h : ControlAfter b k s t) : Raised s t := by
  obtain ⟨-, -, hfatal, haction⟩ := h
  cases b with
  | false => exact .inl ⟨hfatal, haction⟩
  | true => exact .inr ⟨causeBit k, causeBit_ne_zero k, hfatal, haction⟩

theorem Sounds.trans {s t u : State} (h : Sounds s t) (k : Sounds t u) : Sounds s u := by
  obtain ⟨hchan, hplaying, hraised, hbytes, hscores⟩ := h
  obtain ⟨kchan, kplaying, kraised, kbytes, kscores⟩ := k
  exact ⟨kchan.trans hchan, kplaying.trans hplaying, hraised.trans kraised, fun c => (kbytes c).trans (hbytes c),
    fun c => (kscores c).trans (hscores c)⟩

/-- The state with its shared registers and its phase blanked. -/
def State.unshared (s : State) : State :=
  { s with
    filtPtr := 0x00#8, filtTime := 0x00#8, filtType := 0x00#8, filtCutoff := 0x00#8, filtCtrl := 0x00#8
    fader := 0#4, funk0 := 0x00#8, funk1 := 0x00#8, phase := .idle }

/-- A change of shared registers and of the phase. -/
theorem Sounds.of_unshared {s t : State} (h : t.unshared = s.unshared) : Sounds s t := by
  have hkept : ∀ {α : Type} (f : State → α), (∀ u : State, f u.unshared = f u) → f t = f s := fun f hf => by
    rw [← hf t, h, hf s]
  exact ⟨hkept State.chan fun _ => rfl, hkept State.playing fun _ => rfl,
    .inl ⟨hkept State.fatal fun _ => rfl, hkept State.action fun _ => rfl⟩,
    fun c => hkept (State.regAt · (regIdx c 4)) fun _ => rfl,
    fun c => congrArg Channel.score (hkept (State.ch · c) fun _ => by cases c <;> rfl)⟩

theorem Sounds.refl (s : State) : Sounds s s := .of_unshared rfl

theorem Sounds.ite {s t u : State} {q : Prop} [Decidable q] (ht : Sounds s t) (hu : Sounds s u) :
    Sounds s (if q then t else u) := by
  split_ifs
  · exact ht
  · exact hu

theorem modCh_sounds {s : State} {c : Chan} {f : Channel → Channel} (h : (f (s.ch c)).score = (s.ch c).score) :
    Sounds s (s.modCh c f) := by
  refine ⟨modCh_chan s c f, modCh_playing s c f, .inl ⟨modCh_fatal s c f, modCh_action s c f⟩,
    fun d => modCh_regAt s c f _, fun d => ?_⟩
  rw [modCh_ch]
  split_ifs with hd
  · exact hd ▸ h
  · rfl

theorem modCur_sounds {s : State} {f : Channel → Channel} (h : (f s.cur).score = s.cur.score) :
    Sounds s (s.modCur f) := modCh_sounds h

/-- An instruction that is an update of the channel being stepped and nothing else. -/
theorem settled_modCur_sounds {s : State} {f : Channel → Channel} (h : (f s.cur).score = s.cur.score) :
    Sounds s (settled s (.next (s.modCur f))) := modCur_sounds h

/-- A change that is framed by the channel being stepped and the raise of a cause. -/
theorem Sounds.of_onlyChannelOrRaise {b : Bool} {k : Cause} {s t : State} (h : OnlyChannelOrRaise b k s t)
    (hcur : (t.ch s.chan).score = (s.ch s.chan).score) : Sounds s t := by
  obtain ⟨⟨hchan, -⟩, hothers, -, hcontrol, himage, -⟩ := h
  refine ⟨hchan, hcontrol.1, .of_controlAfter hcontrol, fun c => himage _ List.not_mem_nil, fun c => ?_⟩
  by_cases hc : c = s.chan
  · exact hc ▸ hcur
  · rw [hothers c hc]

/-! ## Changes of one channel -/

section
variable (x : Channel)

theorem approachTarget_score (rom : Vector Word 96) (d : Word) : (approachTarget rom d x).score = x.score := by
  rw [approachTarget_eq]
  dsimp only
  split_ifs <;> rfl

theorem pulseModulate_score (r : Byte) : (pulseModulate r x).score = x.score := by
  rcases pulseModulate_cases r x with ⟨_, h⟩ | ⟨_, _, h⟩ | ⟨_, _, h⟩ <;> rw [h] <;> rfl

/-- A pulse entry's own part, then its modulation step (R280). -/
theorem pulseEntry_score (r : Byte) {f : Channel → Channel} (hf : (f x).score = x.score) :
    (pulseModulate r (pulseStart f x)).score = x.score := by
  refine (pulseModulate_score _ r).trans ?_
  unfold pulseStart
  split_ifs
  · exact hf
  · rfl

theorem effectsWithoutEntry_score (rom : Vector Word 96) : (effectsWithoutEntry rom x).score = x.score := by
  unfold effectsWithoutEntry; split_ifs <;> rfl

end

/-! ## The shared operations -/

section
variable (s : State)

theorem goto_sounds (p : Phase) : Sounds s (s.goto p) := .of_unshared rfl

/-- The envelope bytes are no waveform bytes (R77). -/
theorem setReg_sounds (c : Chan) {k : Fin 7} (hk : k ≠ 4) (v : Byte) : Sounds s (s.setReg (regIdx c k) v) :=
  ⟨rfl, rfl, .inl ⟨rfl, rfl⟩, fun d => setReg_regAt_ne s _ _ v fun h => hk ((regIdx_inj_iff d c 4 k).mp h).2.symm,
    fun d => congrArg Channel.score (setReg_ch s _ v d)⟩

theorem setEnvelope_sounds (c : Chan) (ad sr : Byte) : Sounds s (setEnvelope c ad sr s) :=
  (setReg_sounds s c (by decide) ad).trans (setReg_sounds _ c (by decide) sr)

theorem raiseFatalIf_sounds (b : Bool) (k : Cause) : Sounds s (raiseFatalIf b k s) :=
  .of_onlyChannelOrRaise ((OnlyChannel.refl s).raise b k) (by rw [raiseFatalIf_ch])

theorem raiseFatal_sounds (k : Cause) : Sounds s (raiseFatal k s) := raiseFatalIf_sounds s true k

theorem loadWavePtr_sounds (c : Chan) (p : Byte) : Sounds s (loadWavePtr c p s) :=
  (modCh_sounds rfl).trans (raiseFatalIf_sounds _ _ _)

theorem loadPulsePtr_sounds (c : Chan) (p : Byte) : Sounds s (loadPulsePtr c p s) :=
  (modCh_sounds rfl).trans (raiseFatalIf_sounds _ _ _)

theorem loadFilterPtr_sounds (p : Byte) : Sounds s (loadFilterPtr p s) :=
  Sounds.trans (t := { s with filtPtr := p, filtTime := 0x00#8 }) (.of_unshared rfl) (raiseFatalIf_sounds _ _ _)

theorem setFilterControl_sounds (d : Byte) : Sounds s (setFilterControl d s) := .of_unshared rfl

theorem setMasterVolume_sounds (d : Byte) : Sounds s (setMasterVolume d s) := by
  rcases setMasterVolume_cases d s with ⟨_, h⟩ | ⟨_, h⟩ <;> rw [h] <;> exact .of_unshared rfl

theorem setAllTempos_sounds (v : Byte) : Sounds s (setAllTempos v s) :=
  ⟨rfl, rfl, .inl ⟨rfl, rfl⟩, fun _ => rfl, fun c => by rw [setAllTempos_ch]; rfl⟩

theorem setFunk_sounds (l r : Byte) : Sounds s { s with funk0 := l, funk1 := r } := .of_unshared rfl

theorem setFiltPtr_sounds (p : Byte) : Sounds s { s with filtPtr := p } := .of_unshared rfl

theorem fnk_sounds (d : Byte) : Sounds s (perform (.fnk d) s) :=
  Sounds.trans (.ite (.refl s) (setFunk_sounds s _ _)) (setAllTempos_sounds _ _)

theorem tmp_sounds (d : Byte) : Sounds s (perform (.tmp d) s) :=
  .ite (modCur_sounds rfl) (setAllTempos_sounds s _)

/-! ## The walkers -/

theorem waveAdvance_sounds : Sounds s (waveAdvance s) := modCur_sounds rfl

theorem applyNote_sounds (n : BitVec 7) : Sounds s (applyNote n s) := (modCur_sounds rfl).trans (goto_sounds _ _)

/-- A passed entry and its note adjustment (R236, R238). -/
theorem wavePass_sounds (r : Byte) : Sounds s (noteAdjust r (waveAdvance s)) := by
  refine (waveAdvance_sounds s).trans ?_
  rcases noteAdjust_cases r (waveAdvance s) with ⟨_, h⟩ | ⟨_, h⟩ | ⟨_, h⟩ <;> rw [h]
  · exact goto_sounds _ _
  · exact applyNote_sounds _ _
  · exact applyNote_sounds _ _

theorem wavePassCommand_sounds : Sounds s (wavePassCommand s) := (waveAdvance_sounds s).trans (goto_sounds _ _)

theorem tonePorta_sounds (c : Chan) (q : Byte) : Sounds s (tonePorta c q s) := by
  unfold tonePorta
  split_ifs
  · exact modCh_sounds rfl
  · exact modCh_sounds (approachTarget_score _ _ _)

theorem afterPulse_sounds : Sounds s (afterPulse s) := goto_sounds s _

theorem pJump_sounds (r : Byte) : Sounds s (perform (.pJump r) s) :=
  ((modCur_sounds (f := fun x => { x with pulsePtr := jumpTarget .pulse r s }) rfl).trans
    (raiseFatalIf_sounds _ _ _)).trans (.ite (afterPulse_sounds _) (goto_sounds _ _))

theorem filterModulate_sounds (r : Byte) : Sounds s (filterModulate r s) := by
  rcases filterModulate_cases r s with ⟨_, h⟩ | ⟨_, _, h⟩ | ⟨_, _, h⟩ <;> rw [h] <;> exact .of_unshared rfl

/-- A filter entry's own part, then its modulation step (R290). -/
theorem filterEntry_sounds (r : Byte) {f : State → State} (hf : Sounds s (f s)) :
    Sounds s ((filterModulate r (filterStart f s)).goto .sharedOut) :=
  .trans (.ite hf (.refl s)) ((filterModulate_sounds _ r).trans (goto_sounds _ _))

theorem fType_sounds (ty : BitVec 3) (ctl : Byte) : Sounds s (perform (.fType ty ctl) s) := by
  have habsorb : ∀ t, Sounds t (absorbCut t) := fun t => .ite (.of_unshared rfl) (.refl t)
  exact filterEntry_sounds s ctl
    (f := fun t => absorbCut { t with filtType := filterTypeByte ty, filtCtrl := ctl, filtPtr := t.filtPtr + 1#8 })
    (.trans (.of_unshared rfl) (habsorb _))

/-! ## The instructions -/

/-- The formats whose instructions change the sound only: all but the note bytes, the first waveforms and the actions. -/
def soundsOnly : Format → Bool
  | .note | .firstwave | .action => false
  | .cmd | .wave | .pulse | .filter | .slide | .vibrato | .funk | .noteadj => true

theorem perform_sounds {i : Instr} {f : Format} (hi : i.format = some f) (hf : soundsOnly f = true) :
    Sounds s (perform i s) := by
  cases i with
  | nop | pup | pdn | tpo | vib | swv => exact settled_modCur_sounds rfl
  | sad | ssr => exact setReg_sounds s _ (by decide) _
  | swp => exact loadWavePtr_sounds s _ _
  | spp => exact loadPulsePtr_sounds s _ _
  | sfp => exact loadFilterPtr_sounds s _
  | sfc => exact setFilterControl_sounds s _
  | sco => exact .of_unshared rfl
  | sFunk l r => exact setFunk_sounds s l r
  | smv => exact setMasterVolume_sounds s _
  | fnk d => exact fnk_sounds s d
  | tmp d => exact tmp_sounds s d
  | wKeep r => exact wavePass_sounds s r
  | wDelay _ r => exact .ite (wavePass_sounds s r) ((modCur_sounds rfl).trans (goto_sounds _ _))
  | wWave _ r | wMute _ r => exact (modCur_sounds rfl).trans (wavePass_sounds _ r)
  | wxNop | wxSwp | wxFnk => exact (raiseFatal_sounds s _).trans (wavePassCommand_sounds _)
  | wxPup | wxPdn | wxSwv => exact (modCur_sounds rfl).trans (wavePassCommand_sounds _)
  | wxTpo => exact (tonePorta_sounds s _ _).trans (wavePassCommand_sounds _)
  | wxVib => exact (modCh_sounds rfl).trans (wavePassCommand_sounds _)
  | wxSad | wxSsr => exact (setReg_sounds s _ (by decide) _).trans (wavePassCommand_sounds _)
  | wxSpp => exact (loadPulsePtr_sounds s _ _).trans (wavePassCommand_sounds _)
  | wxSfp => exact (loadFilterPtr_sounds s _).trans (wavePassCommand_sounds _)
  | wxSfc r => exact (setFilterControl_sounds s r).trans (wavePassCommand_sounds _)
  | wxSco r => exact Sounds.trans (t := { s with filtCutoff := r }) (.of_unshared rfl) (wavePassCommand_sounds _)
  | wxSmv => exact (setMasterVolume_sounds s _).trans (wavePassCommand_sounds _)
  | wJump => exact (modCur_sounds rfl).trans ((raiseFatalIf_sounds _ _ _).trans (goto_sounds _ _))
  | pHold r | pMod _ r | pSet _ r => exact (modCur_sounds (pulseEntry_score _ r rfl)).trans (afterPulse_sounds _)
  | pJump r => exact pJump_sounds s r
  | fCut r | fMod _ r => exact filterEntry_sounds s r (.of_unshared rfl)
  | fType ty ctl => exact fType_sounds s ty ctl
  | fJump => exact (setFiltPtr_sounds s _).trans ((raiseFatalIf_sounds _ _ _).trans (goto_sounds _ _))
  | sSlide =>
    refine settled_modCur_sounds ?_
    split_ifs
    · rfl
    · rfl
    · exact approachTarget_score _ _ _
    · rfl
  | sVib => exact settled_modCur_sounds rfl
  | naKeep => exact goto_sounds s _
  | naRel | naAbs => exact applyNote_sounds s _
  | nRest | nKoff | nKon | nNote | nNone | fwKeep | fwWave | fwGoff | fwGon | aNone | aStart | aPause | aStop =>
    cases hi; cases hf
  | hTick | hAction | hTestnote | hRelease | hActive | hSetstart | hSetloop => cases hi

end

end Sys2Proof.Machine
end

section
/-! SUPPORT. What each phase runs, and what it leaves of the channels, the mode and the waveform bytes (R140, R150). -/

namespace Sys2Proof.Machine

/-! ## What each phase runs -/

section
variable {s : State}

/-- At the top of a tick the action of the mailbox, which has been cleared (R141). -/
theorem microStep_actions (h : s.phase = .actions) :
    microStep s = (perform (decodeAction (s.action.setWidth 8)) { s with action := 0#2 }).goto .filter := by
  have hf : fetch s = .word .action [s.action.setWidth 8] := by cases s; cases h; rfl
  have hbefore : beforeExec s = { s with action := 0#2 } := by cases s; cases h; rfl
  rw [microStep_of_word (by simp [h]) hf rfl, hbefore, h]; rfl

theorem microStep_noteStart (h : s.phase = .noteStart) :
    microStep s =
      (noteLoads (perform (decodeFirstwave (s.instrByte s.cur.instr .firstwave)) s)).goto .dispatch := by
  have hf : fetch s = .word .firstwave [s.instrByte s.cur.instr .firstwave] := by cases s; cases h; rfl
  have hbefore : beforeExec s = s := by cases s; cases h; rfl
  rw [microStep_of_word (by simp [h]) hf rfl, hbefore, h]; rfl

theorem microStep_dispatch (h : s.phase = .dispatch) :
    microStep s = tick0End (perform (decodeCmd (s.cur.newcommand.setWidth 8) s.cur.newcmddata) s) := by
  have hf : fetch s = .word .cmd [s.cur.newcommand.setWidth 8, s.cur.newcmddata] := by cases s; cases h; rfl
  have hbefore : beforeExec s = s := by cases s; cases h; rfl
  rw [microStep_of_word (by simp [h]) hf rfl, hbefore, h]; rfl

/-- A walker runs the entry under its cursor with nothing around it, and a halted one none (R231). -/
theorem microStep_of_entry {k : Table} {f : Format} {p : Byte} {entry : Byte → Byte → Instr} (hp : s.phase ≠ .idle)
    (hf : fetch s = fetchEntry k f p s) (hd : ∀ l r, decode f [l, r] = .ok (entry l r)) (hbefore : beforeExec s = s)
    (hafter : ∀ t, afterExec s.phase t = t) :
    microStep s = if p = 0x00#8 then advance s else perform (entry (s.left k p) (s.right k p)) s := by
  by_cases hzero : p = 0x00#8
  · rw [if_pos hzero, microStep_of_nothing hp (hf.trans (if_pos hzero))]
  · rw [if_neg hzero, microStep_of_word hp (hf.trans (if_neg hzero)) (hd _ _), hbefore, hafter]

theorem microStep_filter (h : s.phase = .filter) :
    microStep s =
      if s.filtPtr = 0x00#8 then s.goto .sharedOut
      else perform (decodeFilter (s.left .filter s.filtPtr) (s.right .filter s.filtPtr)) s := by
  have hf : fetch s = fetchEntry .filter .filter s.filtPtr s := by cases s; cases h; rfl
  have hadvance : advance s = s.goto .sharedOut := by cases s; cases h; rfl
  have hbefore : beforeExec s = s := by cases s; cases h; rfl
  have hafter : ∀ t, afterExec s.phase t = t := fun t => by rw [h]; rfl
  rw [microStep_of_entry (by simp [h]) hf (fun _ _ => rfl) hbefore hafter, hadvance]

theorem microStep_waveExec (h : s.phase = .waveExec) :
    microStep s =
      if s.cur.wavePtr = 0x00#8 then s.goto .tickNEffects
      else perform (decodeWave (s.left .wave s.cur.wavePtr) (s.right .wave s.cur.wavePtr)) s := by
  have hf : fetch s = fetchEntry .wave .wave s.cur.wavePtr s := by cases s; cases h; rfl
  have hadvance : advance s = s.goto .tickNEffects := by cases s; cases h; rfl
  have hbefore : beforeExec s = s := by cases s; cases h; rfl
  have hafter : ∀ t, afterExec s.phase t = t := fun t => by rw [h]; rfl
  rw [microStep_of_entry (by simp [h]) hf (fun _ _ => rfl) hbefore hafter, hadvance]

theorem microStep_pulseExec (h : s.phase = .pulseExec) :
    microStep s =
      if s.cur.pulsePtr = 0x00#8 then afterPulse s
      else perform (decodePulse (s.left .pulse s.cur.pulsePtr) (s.right .pulse s.cur.pulsePtr)) s := by
  have hf : fetch s = fetchEntry .pulse .pulse s.cur.pulsePtr s := by cases s; cases h; rfl
  have hadvance : advance s = afterPulse s := by cases s; cases h; rfl
  have hbefore : beforeExec s = s := by cases s; cases h; rfl
  have hafter : ∀ t, afterExec s.phase t = t := fun t => by rw [h]; rfl
  rw [microStep_of_entry (by simp [h]) hf (fun _ _ => rfl) hbefore hafter, hadvance]

theorem microStep_getNewNotes (h : s.phase = .getNewNotes) :
    microStep s =
      (if rowAbsent s.cur.pattrow (s.pattLen s.cur.pattnum) then
        s.modCur fun x => { x with pattrow := Config.pattEnd }
       else perform (decodeNote (s.pattByte s.cur.pattnum s.cur.pattrow .note)) (latchRow s)).goto .nextChannel := by
  have hf : fetch s = fetchRow s := by cases s; cases h; rfl
  have hbefore : beforeExec s = latchRow s := by cases s; cases h; rfl
  have hafter : ∀ t, afterExec s.phase t = t.goto .nextChannel := fun t => by rw [h]; rfl
  by_cases habsent : rowAbsent s.cur.pattrow (s.pattLen s.cur.pattnum) = true
  · rw [microStep_of_nothing (by simp [h]) (hf.trans (if_pos habsent)), if_pos habsent]
    cases s; cases h; rfl
  · rw [microStep_of_word (by simp [h]) (hf.trans (if_neg habsent)) rfl, if_neg habsent, hbefore, hafter]

/-- A latched command reads a speed entry, as a slide or for vibrato, or none (R266). -/
theorem fetchEffect_format {f : Format} {bytes : List Byte} (h : fetchEffect s = .word f bytes) :
    soundsOnly f = true := by
  unfold fetchEffect at h
  split_ifs at h <;> cases (fetchEntry_word h).1 <;> rfl

/-- The effects of the latched command change the sound only (R266). -/
theorem microStep_tickNEffects (h : s.phase = .tickNEffects) : ∃ t, Sounds s t ∧ microStep s = t.goto .pulseExec := by
  have hidle : s.phase ≠ .idle := by simp [h]
  have hfetch : fetch s = fetchEffect s := by cases s; cases h; rfl
  cases hf : fetch s with
  | nothing =>
    refine ⟨_, modCur_sounds (effectsWithoutEntry_score _ s.freqRom), (microStep_of_nothing hidle hf).trans ?_⟩
    unfold advance; rw [h]
  | host c => exact absurd hf (fetch_ne_host hidle c)
  | word f bytes =>
    obtain ⟨i, hd⟩ := fetched_word_decodes hf
    have hsound := fetchEffect_format (hfetch.symm.trans hf)
    refine ⟨_, perform_sounds s (decode_format hd) hsound, (microStep_of_word hidle hf hd).trans ?_⟩
    unfold beforeExec afterExec; rw [h]

end

/-! ## The change of one channel -/

/-- A change of a tick that leaves the channel being stepped as `y`, but for the sound, and whatever else the commands
and walkers leave alone as it is. -/
def Stepped (y : Channel) (s t : State) : Prop :=
  t.chan = s.chan ∧ t.playing = s.playing ∧ Raised s t ∧ (∀ c, t.regAt (regIdx c 4) = s.regAt (regIdx c 4)) ∧
  (t.ch s.chan).score = y.score ∧ ∀ c, c ≠ s.chan → (t.ch c).score = (s.ch c).score

section
variable {s t u : State} {y : Channel}

theorem Sounds.stepped (h : Sounds s t) : Stepped (s.ch s.chan) s t := by
  obtain ⟨hchan, hplaying, hraised, hbytes, hscores⟩ := h
  exact ⟨hchan, hplaying, hraised, hbytes, hscores s.chan, fun c _ => hscores c⟩

theorem Stepped.sounds (h : Stepped y s t) (k : Sounds t u) : Stepped y s u := by
  obtain ⟨hchan, hplaying, hraised, hbytes, hcur, hothers⟩ := h
  obtain ⟨kchan, kplaying, kraised, kbytes, kscores⟩ := k
  exact ⟨kchan.trans hchan, kplaying.trans hplaying, hraised.trans kraised, fun c => (kbytes c).trans (hbytes c),
    (kscores s.chan).trans hcur, fun c hc => (kscores c).trans (hothers c hc)⟩

theorem Sounds.andStepped {z : Channel} (h : Sounds s t) (k : Stepped z t u) (hz : z.score = y.score) :
    Stepped y s u := by
  obtain ⟨hchan, hplaying, hraised, hbytes, hscores⟩ := h
  obtain ⟨kchan, kplaying, kraised, kbytes, kcur, kothers⟩ := k
  rw [hchan] at kchan kcur kothers
  exact ⟨kchan, kplaying.trans hplaying, hraised.trans kraised, fun c => (kbytes c).trans (hbytes c),
    kcur.trans hz, fun c hc => (kothers c hc).trans (hscores c)⟩

theorem Stepped.of_onlyChannelOrRaise {b : Bool} {k : Cause} (h : OnlyChannelOrRaise b k s t) :
    Stepped (t.ch s.chan) s t := by
  obtain ⟨⟨hchan, -⟩, hothers, -, hcontrol, himage, -⟩ := h
  exact ⟨hchan, hcontrol.1, .of_controlAfter hcontrol, fun c => himage _ List.not_mem_nil, rfl,
    fun c hc => congrArg Channel.score (hothers c hc)⟩

theorem Stepped.of_onlyChannelOf (h : OnlyChannelOf s.chan [regIdx s.chan 5, regIdx s.chan 6] s t) :
    Stepped (t.ch s.chan) s t := by
  obtain ⟨-, ⟨hchan, -⟩, hothers, -, ⟨hplaying, haction, hfatal, -⟩, himage, -⟩ := h
  exact ⟨hchan, hplaying, .inl ⟨hfatal, haction⟩, fun c => himage _ (by simp [regIdx_inj_iff]), rfl,
    fun c hc => congrArg Channel.score (hothers c hc)⟩

end

/-! ## The channel after each phase -/

/-- The gate after a note start, by the first-waveform byte (R107). -/
def gateAfter (fw gate : Byte) : Byte := if fw = 0x00#8 then gate else if fw = 0xFE#8 then 0xFE#8 else 0xFF#8

/-- What a phase makes of the channel being stepped, but for the sound. -/
@[simp] def channelAfter (s : State) : Channel :=
  let x := s.ch s.chan
  match s.phase with
  | .enter => { x with tick := x.tick - 1#8 }
  | .tickN => (tickN s).ch s.chan
  | .tick0 => ((endOfPattern s).ch s.chan).noteTaken s
  | .noteStart => { x with gate := gateAfter (s.instrByte x.instr .firstwave) x.gate }
  | .dispatch => { x with nnPend := false }
  | .getNewNotes =>
    if rowAbsent s.cur.pattrow (s.pattLen s.cur.pattnum) then { x with pattrow := Config.pattEnd }
    else (perform (decodeNote (s.pattByte s.cur.pattnum s.cur.pattrow .note)) (latchRow s)).ch s.chan
  | .idle | .actions | .filter | .sharedOut | .waveExec | .tickNEffects | .pulseExec | .nextChannel => x

section
variable {s : State}

theorem tickN_stepped : Stepped ((tickN s).ch s.chan) s (tickN s) := by
  by_cases hw : 0x80#8 ≤ (s.ch s.chan).tick
  · exact .of_onlyChannelOrRaise (tickN_of_wrapped hw).2.1
  · rw [tickN_of_not_wrapped hw]
    exact (Sounds.refl s).stepped

/-- The end of the pattern is handled in the channel being stepped; the sequencer may raise (R170, R175). -/
theorem endOfPattern_frame (s : State) : ∃ b, OnlyChannelOrRaise b .illegalPattern s (endOfPattern s) := by
  rw [endOfPattern_eq]
  split_ifs
  · exact ⟨false, (modCur_onlyChannel (fun x => { x with pattrow := 0x00#8 }) s).1.raise false _⟩
  · obtain ⟨-, hothers, hshared, hcontrol, hreg, hmem, hplace, -⟩ := sequencer_spec s.chan s
    exact ⟨_, hplace, hothers, hshared, hcontrol, sameImage_of_reg hreg,
      sameCells_of_mem hmem (sequencer_freqRom ..)⟩
  · exact ⟨false, (OnlyChannel.refl s).raise false _⟩

theorem tick0_stepped : Stepped (((endOfPattern s).ch s.chan).noteTaken s) s (tick0 s) := by
  obtain ⟨hch, hframe, -⟩ := tick0_spec s
  obtain ⟨b, hend⟩ := endOfPattern_frame s
  exact hch ▸ .of_onlyChannelOrRaise (hend.trans hframe)

theorem modCur_stepped (f : Channel → Channel) : Stepped (f (s.ch s.chan)) s (s.modCur f) := by
  have h := Stepped.of_onlyChannelOf (modCh_onlyChannelOf s.chan [regIdx s.chan 5, regIdx s.chan 6] f s)
  rwa [modCh_ch_self] at h

/-- A first waveform sets the gate, and the waveform (R107). -/
theorem firstwave_stepped (fw : Byte) :
    Stepped { s.ch s.chan with gate := gateAfter fw (s.ch s.chan).gate } s (perform (decodeFirstwave fw) s) := by
  unfold gateAfter decodeFirstwave
  split_ifs
  · exact (Sounds.refl s).stepped
  · exact modCur_stepped fun x => { x with gate := 0xFE#8 }
  · exact modCur_stepped fun x => { x with gate := 0xFF#8 }
  · exact modCur_stepped fun x => { x with wave := fw, gate := 0xFF#8 }

theorem noteLoads_sounds (s : State) : Sounds s (noteLoads s) :=
  (((loadWavePtr_sounds s _ _).trans (.ite (.refl _) (loadPulsePtr_sounds _ _ _))).trans
    (.ite (.refl _) (loadFilterPtr_sounds _ _))).trans (setEnvelope_sounds _ _ _ _)

/-- A note byte changes the channel being stepped and its envelope bytes, and not its tick counter (R180). -/
theorem perform_note_frame (n : Byte) (u : State) :
    OnlyChannelOf u.chan [regIdx u.chan 5, regIdx u.chan 6] u (perform (decodeNote n) u) ∧
    ((perform (decodeNote n) u).ch u.chan).tick = (u.ch u.chan).tick := by
  have hgate : ∀ g, ((u.modCur fun x => { x with gate := g }).ch u.chan).tick = (u.ch u.chan).tick := fun g => by
    rw [modCur_ch_self]
  unfold decodeNote
  split_ifs
  · exact ⟨.refl .., rfl⟩
  · exact ⟨modCh_onlyChannelOf _ _ (fun x => { x with gate := 0xFE#8 }) u, hgate 0xFE#8⟩
  · exact ⟨modCh_onlyChannelOf _ _ (fun x => { x with gate := 0xFF#8 }) u, hgate 0xFF#8⟩
  · obtain ⟨t, he, hch, -, -, hframe⟩ := exec_nNote_spec n u
    cases he
    have htick := congrArg Channel.tick hch
    exact ⟨hframe, htick⟩
  · exact ⟨.refl .., rfl⟩

theorem latchRow_chan (s : State) : (latchRow s).chan = s.chan := modCur_chan ..

theorem latchRow_tick (s : State) : ((latchRow s).ch s.chan).tick = (s.ch s.chan).tick := by
  rw [latchRow, modCur_ch_self]

/-- A present row and its note byte (R180). -/
theorem fetchedRow_frame (n : Byte) (s : State) :
    OnlyChannelOf s.chan [regIdx s.chan 5, regIdx s.chan 6] s (perform (decodeNote n) (latchRow s)) ∧
    ((perform (decodeNote n) (latchRow s)).ch s.chan).tick = (s.ch s.chan).tick := by
  obtain ⟨hframe, htick⟩ := perform_note_frame n (latchRow s)
  rw [latchRow_chan] at hframe htick
  exact ⟨(modCh_onlyChannelOf ..).trans hframe, htick.trans (latchRow_tick s)⟩

/-- The end of tick 0 takes the pending note off (R178). -/
theorem tick0End_stepped (u : State) : Stepped { u.ch u.chan with nnPend := false } u (tick0End u) := by
  by_cases hpend : u.cur.nnPend = true
  · rw [tick0End, if_pos hpend]
    exact (modCur_stepped fun x => { x with nnPend := false }).sounds (goto_sounds _ _)
  · have hnone : (u.ch u.chan).nnPend = false := Bool.eq_false_iff.mpr hpend
    have hsame : { u.ch u.chan with nnPend := false } = u.ch u.chan := by rw [← hnone]
    rw [tick0End, if_neg hpend, hsame]
    exact (goto_sounds u _).stepped

/-- The words of the formats that change the sound only are pairs of bytes. -/
theorem performed_sounds {f : Format} {l r : Byte} {i : Instr} (hd : decode f [l, r] = .ok i)
    (hf : soundsOnly f = true) (s : State) : Sounds s (perform i s) := perform_sounds s (decode_format hd) hf

/-- Every phase between the shared write-out and the write-out of a channel changes the channel being stepped as
`channelAfter` says. -/
theorem microStep_stepped (hp : s.phase ∉ [.idle, .actions, .sharedOut, .nextChannel]) :
    Stepped (channelAfter s) s (microStep s) := by
  cases h : s.phase with
  | idle | actions | sharedOut | nextChannel => simp [h] at hp
  | filter =>
    rw [microStep_filter h]
    simp only [channelAfter, h]
    refine Sounds.stepped (.ite (goto_sounds s _) (performed_sounds (f := .filter) rfl rfl s))
  | enter =>
    obtain ⟨hch, hframe, -⟩ := enterChannel_spec s
    rw [microStep_enter h]
    simp only [channelAfter, h]
    exact hch ▸ .of_onlyChannelOrRaise (hframe.raise false .illegalPattern)
  | tickN =>
    rw [microStep_tickN h]
    simp only [channelAfter, h]
    exact tickN_stepped.sounds (goto_sounds _ _)
  | tick0 =>
    rw [microStep_tick0 h]
    simp only [channelAfter, h]
    exact tick0_stepped
  | noteStart =>
    rw [microStep_noteStart h]
    simp only [channelAfter, h]
    exact (firstwave_stepped _).sounds ((noteLoads_sounds _).trans (goto_sounds _ _))
  | dispatch =>
    rw [microStep_dispatch h]
    simp only [channelAfter, h]
    have hsounds := performed_sounds (f := .cmd) (l := s.cur.newcommand.setWidth 8) (r := s.cur.newcmddata) rfl rfl s
    obtain ⟨hchan, -, -, -, hscores⟩ := id hsounds
    have hscore := congrArg (fun x => { x with nnPend := false }) (hscores s.chan)
    exact hsounds.andStepped (tick0End_stepped _) (hchan ▸ hscore)
  | waveExec =>
    rw [microStep_waveExec h]
    simp only [channelAfter, h]
    exact Sounds.stepped (.ite (goto_sounds s _) (performed_sounds (f := .wave) rfl rfl s))
  | tickNEffects =>
    obtain ⟨t, hsounds, ht⟩ := microStep_tickNEffects h
    rw [ht]
    simp only [channelAfter, h]
    exact (hsounds.trans (goto_sounds t _)).stepped
  | pulseExec =>
    rw [microStep_pulseExec h]
    simp only [channelAfter, h]
    exact Sounds.stepped (.ite (afterPulse_sounds s) (performed_sounds (f := .pulse) rfl rfl s))
  | getNewNotes =>
    rw [microStep_getNewNotes h]
    simp only [channelAfter, h]
    refine Stepped.sounds ?_ (goto_sounds _ _)
    split_ifs
    · exact modCur_stepped fun x => { x with pattrow := Config.pattEnd }
    · exact .of_onlyChannelOf (fetchedRow_frame _ s).1

end

end Sys2Proof.Machine
end

section
/-! SUPPORT. Where each phase goes (R140, R150). -/

namespace Sys2Proof.Machine

/-! ## Jumps (R230) -/

theorem jumpTarget_eq_zero_iff (k : Table) (r : Byte) (s : State) :
    jumpTarget k r s = 0x00#8 ↔ r = 0x00#8 ∨ s.left k r = 0xFF#8 := by
  by_cases hr : r = 0x00#8
  · simp [jumpTarget, jumpChained, hr]
  · by_cases hj : s.left k r = 0xFF#8 <;> simp [jumpTarget, jumpChained, State.isJumpAt, hr, hj]

/-! ## Where the instructions of the walkers go -/

section
variable {s t : State}

/-- A register that the commands and walkers leave alone. -/
theorem Sounds.kept {α : Type} (h : Sounds s t) (f : Channel → α) (hf : ∀ x : Channel, f x.score = f x) (c : Chan) :
    f (t.ch c) = f (s.ch c) := by
  obtain ⟨-, -, -, -, hscores⟩ := h
  rw [← hf (t.ch c), hscores c, hf]

theorem fetchDue_iff (s : State) :
    fetchDue s s.chan = true ↔
      s.playing = true ∧ (s.ch s.chan).tick = (s.ch s.chan).gatetimer.setWidth 8 := by
  simp [fetchDue]

theorem afterPulse_eq (s : State) : afterPulse s = s.goto (phaseAfterPulse s) :=
  congrArg s.goto (if_congr (fetchDue_iff s) rfl rfl)

/-- The sound does not decide whether a row is due (R156). -/
theorem Sounds.phaseAfterPulse_eq (h : Sounds s t) : phaseAfterPulse t = phaseAfterPulse s := by
  have htick := h.kept Channel.tick (fun _ => rfl) s.chan
  have hgatetimer := h.kept Channel.gatetimer (fun _ => rfl) s.chan
  obtain ⟨hchan, hplaying, -⟩ := h
  unfold phaseAfterPulse
  rw [hchan, hplaying, htick, hgatetimer]

/-- The target of a jump entry is where the walker goes on. -/
theorem jumpTarget_ne_zero_iff (k : Table) (r : Byte) (s : State) :
    ¬ jumpTarget k r s = 0x00#8 ↔ r ≠ 0x00#8 ∧ s.left k r ≠ 0xFF#8 := by
  rw [jumpTarget_eq_zero_iff, not_or]

theorem filterJump_eq (r : Byte) (s : State) :
    perform (decodeFilter 0xFF#8 r) s =
      (raiseFatalIf (jumpChained .filter r s) .jumpIntoJumpFilter { s with filtPtr := jumpTarget .filter r s }).goto
        (if jumpTarget .filter r s = 0x00#8 then .sharedOut else .filter) := rfl

theorem waveJump_eq (r : Byte) (s : State) :
    perform (decodeWave 0xFF#8 r) s =
      (raiseFatalIf (jumpChained .wave r s) .jumpIntoJumpWave
        (s.modCur fun x => { x with wavePtr := jumpTarget .wave r s })).goto
        (if jumpTarget .wave r s = 0x00#8 then .tickNEffects else .waveExec) := rfl

/-- The state in which the pulse walker has jumped, before it passes the tick on or goes on (R281). -/
def pulseJumped (r : Byte) (s : State) : State :=
  raiseFatalIf (jumpChained .pulse r s) .jumpIntoJumpPulse
    (s.modCur fun x => { x with pulsePtr := jumpTarget .pulse r s })

theorem pulseJump_eq (r : Byte) (s : State) :
    perform (decodePulse 0xFF#8 r) s =
      if jumpTarget .pulse r s = 0x00#8 then afterPulse (pulseJumped r s) else (pulseJumped r s).goto .pulseExec := rfl

theorem pulseJumped_sounds (r : Byte) (s : State) : Sounds s (pulseJumped r s) :=
  (modCur_sounds rfl).trans (raiseFatalIf_sounds _ _ _)

theorem perform_wDelay (n : BitVec 4) (r : Byte) (s : State) : perform (.wDelay n r) s = settled s (execWDelay n r s) := rfl

theorem filterEntry_phase (l r : Byte) (s : State) :
    (perform (decodeFilter l r) s).phase =
      if l = 0xFF#8 ∧ r ≠ 0x00#8 ∧ s.left .filter r ≠ 0xFF#8 then .filter else .sharedOut := by
  by_cases hjump : l = 0xFF#8
  · subst hjump
    rw [filterJump_eq, goto_phase, ← ite_not, if_congr (jumpTarget_ne_zero_iff .filter r s) rfl rfl]
    simp only [true_and]
  · rw [if_neg fun h => hjump h.1]
    unfold decodeFilter
    split_ifs <;> rfl

theorem pulseEntry_phase (l r : Byte) (s : State) :
    (perform (decodePulse l r) s).phase =
      if l = 0xFF#8 ∧ r ≠ 0x00#8 ∧ s.left .pulse r ≠ 0xFF#8 then .pulseExec else phaseAfterPulse s := by
  have hentry : ∀ f : Channel → Channel, (f s.cur).score = s.cur.score →
      (afterPulse (s.modCur f)).phase = phaseAfterPulse s := fun f hf => by
    rw [afterPulse_eq, goto_phase, (modCur_sounds hf).phaseAfterPulse_eq]
  by_cases hjump : l = 0xFF#8
  · subst hjump
    have hafter := (pulseJumped_sounds r s).phaseAfterPulse_eq
    rw [pulseJump_eq]
    simp only [true_and]
    by_cases htarget : jumpTarget .pulse r s = 0x00#8
    · rw [if_pos htarget, afterPulse_eq, goto_phase, hafter,
        if_neg fun h => (jumpTarget_ne_zero_iff .pulse r s).mpr h htarget]
    · rw [if_neg htarget, if_pos ((jumpTarget_ne_zero_iff .pulse r s).mp htarget), goto_phase]
  · rw [if_neg fun h => hjump h.1]
    unfold decodePulse
    split_ifs
    · exact hentry _ (pulseEntry_score _ r rfl)
    · exact hentry _ (pulseEntry_score _ r rfl)
    · exact hentry _ (pulseEntry_score _ r rfl)

theorem noteAdjust_phase (r : Byte) (s : State) : (noteAdjust r s).phase = phaseAfterAdjust r := by
  unfold phaseAfterAdjust
  rcases noteAdjust_cases r s with ⟨hr, h⟩ | ⟨hr, h⟩ | ⟨hr, h⟩
  · rw [h, if_pos hr]; rfl
  · rw [h, if_neg (by rintro rfl; exact absurd hr (by decide))]; rfl
  · rw [h, if_neg (by rintro rfl; exact absurd hr (by decide))]; rfl

theorem embedded_phase (k : BitVec 4) (r : Byte) (s : State) :
    (perform (decodeEmbedded k r) s).phase = .pulseExec := by
  unfold decodeEmbedded
  split <;> rfl

/-- Where a wave entry sends the channel (R150, R232, R237, R238, R239). -/
theorem waveEntry_phase (l r : Byte) (s : State) :
    (perform (decodeWave l r) s).phase =
      if l = 0xFF#8 then
        (if r = 0x00#8 ∨ s.left .wave r = 0xFF#8 then .tickNEffects else .waveExec)
      else if 0xF0#8 ≤ l then .pulseExec
      else if 0x01#8 ≤ l ∧ l ≤ 0x0F#8 ∧ s.cur.wavetime ≠ l then .tickNEffects
      else phaseAfterAdjust r := by
  unfold decodeWave
  by_cases hkeep : l = 0x00#8
  · rw [if_pos hkeep, if_neg (by bv_omega), if_neg (by bv_omega), if_neg (by bv_omega)]
    exact noteAdjust_phase r _
  rw [if_neg hkeep]
  by_cases hdelay : l < 0x10#8
  · have hcount : (l.setWidth 4).setWidth 8 = l := by bv_omega
    rw [if_pos hdelay, if_neg (by bv_omega), if_neg (by bv_omega)]
    rw [perform_wDelay]
    simp only [execWDelay, settled_next, hcount]
    by_cases hdone : s.cur.wavetime = l
    · rw [if_pos hdone, if_neg (fun h => h.2.2 hdone), noteAdjust_phase]
    · rw [if_neg hdone, if_pos ⟨by bv_omega, by bv_omega, hdone⟩, goto_phase]
  rw [if_neg hdelay]
  by_cases hplain : l < 0xF0#8
  · by_cases hwave : l < 0xE0#8
    · rw [if_pos hwave, if_neg (by bv_omega), if_neg (by bv_omega), if_neg (by bv_omega)]
      exact noteAdjust_phase r _
    · rw [if_neg hwave, if_pos hplain, if_neg (by bv_omega), if_neg (by bv_omega), if_neg (by bv_omega)]
      exact noteAdjust_phase r _
  have hcommand : 0xF0#8 ≤ l := by bv_omega
  rw [if_neg (by bv_omega), if_neg hplain]
  by_cases hjump : l = 0xFF#8
  · rw [if_pos hjump, if_pos hjump]
    exact if_congr (jumpTarget_eq_zero_iff .wave r s) rfl rfl
  · rw [if_neg hjump, if_neg hjump, if_pos hcommand]
    exact embedded_phase _ r s

/-! ## The phase after a phase -/

/-- Where a tick goes from a phase (R140, R150). -/
@[simp] def phaseAfter (p : Phase) (s : State) : Phase :=
  let x := s.ch s.chan
  let l := s.left .wave x.wavePtr
  match p with
  | .idle => .idle
  | .actions => .filter
  | .filter =>
    if s.filtPtr ≠ 0x00#8 ∧ s.left .filter s.filtPtr = 0xFF#8 ∧ s.right .filter s.filtPtr ≠ 0x00#8 ∧
        s.left .filter (s.right .filter s.filtPtr) ≠ 0xFF#8 then .filter
    else .sharedOut
  | .sharedOut => .enter
  | .enter => if x.tick = 1#8 then .tick0 else .tickN
  | .tickN => .waveExec
  | .tick0 => if x.nnPend = true ∧ x.newcommand ≠ 3#4 then .noteStart else .dispatch
  | .noteStart => .dispatch
  | .dispatch => if x.nnPend = true ∧ x.newcommand ≠ 3#4 then .nextChannel else .waveExec
  | .waveExec =>
    if x.wavePtr = 0x00#8 then .tickNEffects
    else if l = 0xFF#8 then
      (if s.right .wave x.wavePtr = 0x00#8 ∨ s.left .wave (s.right .wave x.wavePtr) = 0xFF#8 then .tickNEffects
       else .waveExec)
    else if 0xF0#8 ≤ l then .pulseExec
    else if 0x01#8 ≤ l ∧ l ≤ 0x0F#8 ∧ x.wavetime ≠ l then .tickNEffects
    else if s.right .wave x.wavePtr = 0x80#8 then .tickNEffects else .pulseExec
  | .tickNEffects => .pulseExec
  | .pulseExec =>
    if x.pulsePtr ≠ 0x00#8 ∧ s.left .pulse x.pulsePtr = 0xFF#8 ∧ s.right .pulse x.pulsePtr ≠ 0x00#8 ∧
        s.left .pulse (s.right .pulse x.pulsePtr) ≠ 0xFF#8 then .pulseExec
    else phaseAfterPulse s
  | .getNewNotes => .nextChannel
  | .nextChannel => if s.chan = .c2 then .idle else .enter

/-- The end of the pattern is no business of the pending note and command (R175). -/
theorem endOfPattern_pending (s : State) :
    ((endOfPattern s).ch s.chan).nnPend = (s.ch s.chan).nnPend ∧
    ((endOfPattern s).ch s.chan).newcommand = (s.ch s.chan).newcommand := by
  rw [endOfPattern_eq]
  split_ifs
  · rw [setCh_ch_self]; exact ⟨rfl, rfl⟩
  · rw [(sequencer_spec s.chan s).1]; exact ⟨rfl, rfl⟩
  · exact ⟨rfl, rfl⟩

theorem tick0End_phase (u : State) :
    (tick0End u).phase =
      if (u.ch u.chan).nnPend = true ∧ (u.ch u.chan).newcommand ≠ 3#4 then .nextChannel else .waveExec := by
  unfold tick0End isTonePorta State.cur
  by_cases hpend : (u.ch u.chan).nnPend = true
  · by_cases hporta : (u.ch u.chan).newcommand = 3#4 <;> simp [hpend, hporta]
  · simp [hpend]

theorem nextChannel_phase (s : State) : (nextChannel s).phase = if s.chan = .c2 then .idle else .enter := by
  unfold nextChannel
  cases s.chan <;> rfl

theorem microStep_phase {s : State} {p : Phase} (h : s.phase = p) : (microStep s).phase = phaseAfter p s := by
  cases p with
  | idle => rw [microStep_idle h, h, phaseAfter]
  | actions => rw [microStep_actions h, phaseAfter]; rfl
  | filter =>
    rw [microStep_filter h, phaseAfter]
    by_cases hp : s.filtPtr = 0x00#8
    · rw [if_pos hp]; exact (if_neg fun hj => hj.1 hp).symm
    · rw [if_neg hp, filterEntry_phase]
      exact if_congr (and_iff_right hp).symm rfl rfl
  | sharedOut => rw [microStep_sharedOut h, phaseAfter]
  | enter =>
    rw [microStep_enter h, phaseAfter, (enterChannel_spec s).2.2]
    exact if_congr (by bv_omega) rfl rfl
  | tickN => rw [microStep_tickN h, phaseAfter]; rfl
  | tick0 =>
    obtain ⟨hpend, hcommand⟩ := endOfPattern_pending s
    rw [microStep_tick0 h, phaseAfter, (tick0_spec s).2.2, hpend, hcommand]
  | noteStart => rw [microStep_noteStart h, phaseAfter]; rfl
  | dispatch =>
    have hsounds := performed_sounds (f := .cmd) (l := s.cur.newcommand.setWidth 8) (r := s.cur.newcmddata) rfl rfl s
    have hpend := hsounds.kept Channel.nnPend (fun _ => rfl) s.chan
    have hcommand := hsounds.kept Channel.newcommand (fun _ => rfl) s.chan
    rw [microStep_dispatch h, phaseAfter, tick0End_phase, hsounds.1, hpend, hcommand]
  | waveExec =>
    rw [microStep_waveExec h, phaseAfter]
    by_cases hp : s.cur.wavePtr = 0x00#8
    · rw [if_pos hp]; exact (if_pos hp).symm
    · rw [if_neg hp, waveEntry_phase]; exact (if_neg hp).symm
  | tickNEffects =>
    obtain ⟨t, -, ht⟩ := microStep_tickNEffects h
    rw [ht, phaseAfter]; rfl
  | pulseExec =>
    rw [microStep_pulseExec h, phaseAfter]
    by_cases hp : s.cur.pulsePtr = 0x00#8
    · rw [if_pos hp, afterPulse_eq]; exact (if_neg fun hj => hj.1 hp).symm
    · rw [if_neg hp, pulseEntry_phase]
      exact if_congr (and_iff_right hp).symm rfl rfl
  | getNewNotes => rw [microStep_getNewNotes h, phaseAfter]; rfl
  | nextChannel => rw [microStep_nextChannel h, phaseAfter, nextChannel_phase]

/-- A walker whose cursor is 0 fetches nothing and passes the tick on (R231, R280, R290). -/
theorem microStep_of_halted_walker (s : State) :
    (s.phase = .filter → s.filtPtr = 0x00#8 → microStep s = s.goto .sharedOut) ∧
    (s.phase = .waveExec → (s.ch s.chan).wavePtr = 0x00#8 → microStep s = s.goto .tickNEffects) ∧
    (s.phase = .pulseExec → (s.ch s.chan).pulsePtr = 0x00#8 → microStep s = s.goto (phaseAfterPulse s)) :=
  ⟨fun h hz => (microStep_filter h).trans (if_pos hz), fun h hz => (microStep_waveExec h).trans (if_pos hz),
    fun h hz => (microStep_pulseExec h).trans ((if_pos hz).trans (afterPulse_eq s))⟩

/-- The channel that a tick steps after a channel; after the last one the register is back at the first (R150). -/
@[simp] def channelAfterwards : Chan → Chan
  | .c0 => .c1
  | .c1 => .c2
  | .c2 => .c0

theorem nextChannel_chan (s : State) : (nextChannel s).chan = channelAfterwards s.chan := by
  unfold nextChannel
  cases s.chan <;> rfl

/-- Settles O7: every transition is `phaseAfter`; a halted walker fetches nothing. -/
theorem phaseTransitions : Obligations.PhaseTransitions := by
  intro s hr x l
  have hstep : ∀ {p}, s.phase = p → p ≠ .idle → step s = .next (microStep s) := fun hp hne =>
    step_inside_tick hr (hp ▸ hne)
  have hnext : ∀ {p}, s.phase = p → p ≠ .idle → ∃ t, step s = .next t ∧ t.phase = phaseAfter p s := fun hp hne =>
    ⟨_, hstep hp hne, microStep_phase hp⟩
  obtain ⟨hfilter, hwave, hpulse⟩ := microStep_of_halted_walker s
  exact ⟨fun h => hnext h (by decide), fun h => hnext h (by decide),
    fun h hz => (hstep h (by decide)).trans (congrArg _ (hfilter h hz)),
    fun h => ⟨_, hstep h (by decide), microStep_phase h, by rw [microStep_sharedOut h]⟩,
    fun h => hnext h (by decide), fun h => hnext h (by decide), fun h => hnext h (by decide),
    fun h => hnext h (by decide), fun h => hnext h (by decide), fun h => hnext h (by decide),
    fun h hz => (hstep h (by decide)).trans (congrArg _ (hwave h hz)), fun h => hnext h (by decide),
    fun h hz => (hstep h (by decide)).trans (congrArg _ (hpulse h hz)), fun h => hnext h (by decide),
    fun h => hnext h (by decide),
    fun h => ⟨_, hstep h (by decide), microStep_phase h, by
      rw [microStep_nextChannel h, nextChannel_chan]; cases s.chan <;> rfl⟩⟩

end

end Sys2Proof.Machine
end

section
/-! SUPPORT. A tick comes to its end: what its first phase does, how many phases are left, and the machine's steps as
those phases (R140, R150, R366). -/

namespace Sys2Proof.Machine

/-! ## The action (R141) -/

section
variable {s : State}

theorem perform_action (a : BitVec 2) (s : State) :
    perform (decodeAction (a.setWidth 8)) s =
      if a = 1#2 then startSong s else if a = 2#2 then pauseSong s else if a = 3#2 then stopSong s else s := by
  have ha : a = 0#2 ∨ a = 1#2 ∨ a = 2#2 ∨ a = 3#2 := by bv_omega
  rcases ha with rfl | rfl | rfl | rfl <;> rfl

theorem pauseSong_spec (s : State) :
    ReleasedAll s (pauseSong s) ∧ ∀ c, (pauseSong s).ch c = (s.ch c).positionKept.released :=
  releaseAll_spec pauseChannel_spec fun c t _ hc => by rw [hc]

theorem stopSong_spec (s : State) :
    ReleasedAll s (stopSong s) ∧ ∀ c, (stopSong s).ch c = ((s.ch c).released.rewound (startIndex c s)) :=
  releaseAll_spec stopChannel_spec fun c t hm hc => by rw [hc, startIndex_congr hm hc]

theorem startSong_chan (s : State) : (startSong s).chan = s.chan := by
  by_cases hempty : s.songLen = 0x00#8
  · rw [startSong_of_empty hempty]
  · obtain ⟨-, -, -, -, -, -, ⟨hchan, -⟩, -⟩ := startSong_spec hempty
    exact hchan

theorem action_chan (a : BitVec 2) (s : State) : (perform (decodeAction (a.setWidth 8)) s).chan = s.chan := by
  obtain ⟨⟨-, -, -, -, ⟨hpause, -⟩, -⟩, -⟩ := pauseSong_spec s
  obtain ⟨⟨-, -, -, -, ⟨hstop, -⟩, -⟩, -⟩ := stopSong_spec s
  rw [perform_action]
  split_ifs
  · exact startSong_chan s
  · exact hpause
  · exact hstop
  · rfl

/-! ## The channel being stepped -/

/-- The channel that is stepped after a phase. -/
@[simp] def chanAfter (p : Phase) (c : Chan) : Chan :=
  match p with
  | .sharedOut => .c0
  | .nextChannel => channelAfterwards c
  | _ => c

theorem microStep_chan {p : Phase} (h : s.phase = p) : (microStep s).chan = chanAfter p s.chan := by
  have hstepped (hp : p ∉ [.idle, .actions, .sharedOut, .nextChannel]) : (microStep s).chan = s.chan :=
    (microStep_stepped (h ▸ hp)).1
  cases p with
  | idle => rw [microStep_idle h]; rfl
  | actions => rw [microStep_actions h, goto_chan, action_chan]; rfl
  | sharedOut => rw [microStep_sharedOut h]; rfl
  | nextChannel => rw [microStep_nextChannel h, nextChannel_chan]; rfl
  | filter | enter | tickN | tick0 | noteStart | dispatch | waveExec | tickNEffects | pulseExec | getNewNotes =>
    exact hstepped (by decide)

/-! ## The phases left -/

/-- The cursor of a table's walker; the speed table has none. -/
def State.walkerCursor (k : Table) (s : State) : Byte :=
  match k with
  | .wave => s.cur.wavePtr
  | .pulse => s.cur.pulsePtr
  | .filter => s.filtPtr
  | .speed => 0x00#8

/-- The jump entries that a walker can still run in a step of it: the one under its cursor (R230). -/
def jumpsLeft (k : Table) (s : State) : Nat := if s.left k (s.walkerCursor k) = 0xFF#8 then 1 else 0

theorem jumpsLeft_le_one (k : Table) (s : State) : jumpsLeft k s ≤ 1 := by
  unfold jumpsLeft; split_ifs <;> omega

theorem microStep_left (k : Table) (p : Byte) (s : State) : (microStep s).left k p = s.left k p := by
  unfold State.left; rw [(microStep_keeps s).mem]

/-- After a jump the cursor stands at its target, which is no jump (R230). -/
theorem jumpsLeft_of_jumped {k : Table} {r : Byte} (hcursor : (microStep s).walkerCursor k = jumpTarget k r s)
    (htarget : s.left k r ≠ 0xFF#8) : jumpsLeft k (microStep s) = 0 := by
  have hchained : jumpTarget k r s = r := if_neg (by simp [jumpChained, State.isJumpAt, htarget])
  rw [jumpsLeft, hcursor, hchained, microStep_left, if_neg htarget]

theorem filter_jumped (h : s.phase = .filter) (hp : s.filtPtr ≠ 0x00#8) (hl : s.left .filter s.filtPtr = 0xFF#8) :
    (microStep s).walkerCursor .filter = jumpTarget .filter (s.right .filter s.filtPtr) s := by
  rw [microStep_filter h, if_neg hp, hl, filterJump_eq]
  rcases raiseFatalIf_cases (jumpChained .filter (s.right .filter s.filtPtr) s) .jumpIntoJumpFilter
    { s with filtPtr := jumpTarget .filter (s.right .filter s.filtPtr) s } with ⟨-, hr⟩ | ⟨-, hr⟩ <;>
  exact congrArg State.filtPtr hr

theorem wave_jumped (h : s.phase = .waveExec) (hp : s.cur.wavePtr ≠ 0x00#8)
    (hl : s.left .wave s.cur.wavePtr = 0xFF#8) :
    (microStep s).walkerCursor .wave = jumpTarget .wave (s.right .wave s.cur.wavePtr) s := by
  rw [microStep_waveExec h, if_neg hp, hl, waveJump_eq]
  simp [State.walkerCursor, State.cur]

theorem pulse_jumped (h : s.phase = .pulseExec) (hp : s.cur.pulsePtr ≠ 0x00#8)
    (hl : s.left .pulse s.cur.pulsePtr = 0xFF#8) :
    (microStep s).walkerCursor .pulse = jumpTarget .pulse (s.right .pulse s.cur.pulsePtr) s := by
  have hcursor : ((pulseJumped (s.right .pulse s.cur.pulsePtr) s).cur).pulsePtr =
      jumpTarget .pulse (s.right .pulse s.cur.pulsePtr) s := by simp [pulseJumped, State.cur]
  rw [microStep_pulseExec h, if_neg hp, hl, pulseJump_eq, afterPulse_eq]
  split_ifs <;> exact (congrArg Channel.pulsePtr (goto_cur ..)).trans hcursor

/-- The channels of a tick that come after a channel. -/
@[simp] def channelsToCome : Chan → Nat
  | .c0 => 2
  | .c1 => 1
  | .c2 => 0

/-- The most phases that are left of a channel's step, with the jump entries its walkers stand on; 0 outside one. -/
@[simp] def channelPhasesLeft (p : Phase) (s : State) : Nat :=
  match p with
  | .enter => 11
  | .tickN | .tick0 => 10
  | .noteStart => 9
  | .dispatch => 8
  | .waveExec => 6 + jumpsLeft .wave s
  | .tickNEffects => 5
  | .pulseExec => 3 + jumpsLeft .pulse s
  | .getNewNotes => 2
  | .nextChannel => 1
  | .idle | .actions | .filter | .sharedOut => 0

/-- The most phases that are left of a tick in phase `p`. -/
@[simp] def phasesLeft (p : Phase) (s : State) : Nat :=
  match p with
  | .idle => 0
  | .actions => 37
  | .filter => 35 + jumpsLeft .filter s
  | .sharedOut => 34
  | _ => channelPhasesLeft p s + 11 * channelsToCome s.chan

theorem phasesLeft_microStep (hp : s.phase ≠ .idle) :
    phasesLeft (microStep s).phase (microStep s) < phasesLeft s.phase s := by
  have hwave := jumpsLeft_le_one .wave (microStep s)
  have hpulse := jumpsLeft_le_one .pulse (microStep s)
  have hfilter := jumpsLeft_le_one .filter (microStep s)
  cases h : s.phase with
  | idle => exact absurd h hp
  | actions => rw [microStep_phase h]; simp only [phaseAfter, phasesLeft]; omega
  | filter =>
    rw [microStep_phase h, phaseAfter]
    split_ifs with hj
    · obtain ⟨hcursor, hl, hr, htarget⟩ := hj
      have hnone := jumpsLeft_of_jumped (filter_jumped h hcursor hl) htarget
      have hone : jumpsLeft .filter s = 1 := if_pos hl
      simp only [phasesLeft]; omega
    · simp only [phasesLeft]; omega
  | sharedOut =>
    rw [microStep_phase h]
    simp [phaseAfter, phasesLeft, channelPhasesLeft, microStep_chan h, chanAfter, channelsToCome]
  | waveExec =>
    rw [microStep_phase h, phaseAfter]
    simp only [phasesLeft, channelPhasesLeft, microStep_chan h, chanAfter]
    split_ifs with hp hl hj
    case neg =>
      have hnone := jumpsLeft_of_jumped (wave_jumped h hp hl) (not_or.mp hj).2
      have hone : jumpsLeft .wave s = 1 := if_pos hl
      dsimp only; omega
    all_goals dsimp only; omega
  | pulseExec =>
    rw [microStep_phase h, phaseAfter, phaseAfterPulse]
    simp only [phasesLeft, channelPhasesLeft, microStep_chan h, chanAfter]
    split_ifs with hj
    · obtain ⟨hcursor, hl, hr, htarget⟩ := hj
      have hnone := jumpsLeft_of_jumped (pulse_jumped h hcursor hl) htarget
      have hone : jumpsLeft .pulse s = 1 := if_pos hl
      dsimp only; omega
    all_goals dsimp only; omega
  | nextChannel =>
    have hchan := microStep_chan h
    rw [microStep_phase h, phaseAfter]
    cases hc : s.chan <;> simp [phasesLeft, channelPhasesLeft, chanAfter, channelAfterwards, channelsToCome, hchan, hc]
  | tickN | noteStart | tickNEffects | getNewNotes =>
    rw [microStep_phase h, phaseAfter]
    simp only [phasesLeft, channelPhasesLeft, microStep_chan h, chanAfter]; omega
  | enter | tick0 | dispatch =>
    rw [microStep_phase h, phaseAfter]
    simp only [phasesLeft, channelPhasesLeft, microStep_chan h, chanAfter]
    split_ifs <;> dsimp only <;> omega

/-! ## The end of a tick -/

theorem tickAt_phasesLeft (n : Nat) (s : State) : phasesLeft (tickAt n s).phase (tickAt n s) ≤ 37 - n := by
  induction n with
  | zero => rw [tickAt_zero, goto_phase]; exact le_rfl
  | succ n ih =>
    rw [tickAt_succ]
    by_cases hidle : (tickAt n s).phase = .idle
    · rw [microStep_idle hidle, hidle]; exact Nat.zero_le _
    · exact Nat.le_sub_one_of_lt (lt_of_lt_of_le (phasesLeft_microStep hidle) ih)

theorem phasesLeft_eq_zero {p : Phase} {s : State} (h : phasesLeft p s = 0) : p = .idle := by
  cases p <;> simp [phasesLeft, channelPhasesLeft] at h ⊢

/-- Whatever holds at the first phase of a tick and is kept by every phase holds after each. -/
theorem tickAt_induction {P : State → Prop} {s : State} (hstart : P (s.goto .actions))
    (hstep : ∀ u, u.phase ≠ .idle → P u → P (microStep u)) (n : Nat) : P (tickAt n s) := by
  induction n with
  | zero => exact hstart
  | succ n ih =>
    rw [tickAt_succ]
    by_cases hidle : (tickAt n s).phase = .idle
    · rwa [microStep_idle hidle]
    · exact hstep _ hidle ih

theorem runTick_phase (s : State) : (runTick s).phase = .idle :=
  runTick_eq_tickAt s ▸ phasesLeft_eq_zero (Nat.le_zero.mp (tickAt_phasesLeft 37 s))

/-- A tick ends behind the step of the last channel (R150). -/
theorem phaseAfter_eq_idle {p : Phase} (h : phaseAfter p s = .idle) :
    p = .idle ∨ (p = .nextChannel ∧ s.chan = .c2) := by
  cases p with
  | idle => exact .inl rfl
  | nextChannel => exact .inr ⟨rfl, by_contra fun hc => by rw [phaseAfter, if_neg hc] at h; cases h⟩
  | actions | sharedOut | tickN | noteStart | tickNEffects | getNewNotes => cases h
  | filter | enter | tick0 | dispatch | waveExec | pulseExec =>
    simp only [phaseAfter, phaseAfterPulse] at h
    split_ifs at h

theorem chan_of_microStep_idle (hp : s.phase ≠ .idle) (h : (microStep s).phase = .idle) : (microStep s).chan = .c0 := by
  obtain hidle | ⟨hphase, hlast⟩ := phaseAfter_eq_idle ((microStep_phase rfl).symm.trans h)
  · exact absurd hidle hp
  · rw [microStep_chan hphase, hlast]; rfl

theorem tickAt_chan_of_idle (n : Nat) (s : State) : (tickAt n s).phase = .idle → (tickAt n s).chan = .c0 :=
  tickAt_induction (P := fun u => u.phase = .idle → u.chan = .c0) (fun h => absurd h (by simp))
    (fun _ hu _ => chan_of_microStep_idle hu) n

theorem microStep_resetWaiting (s : State) : (microStep s).resetWaiting = s.resetWaiting := by
  unfold State.resetWaiting; rw [(microStep_setup s).requests]

/-- Inside a tick the machine's steps are the phases, and no request is served (R85, R320). -/
theorem run_eq_iterate {m : Nat} (hr : s.resetWaiting = false) (hm : ∀ k < m, (microStep^[k] s).phase ≠ .idle) :
    Host.Core.run Sys2Proof.core m s = .next (microStep^[m] s) := by
  induction m generalizing s with
  | zero => rfl
  | succ m ih =>
    have hstep : Sys2Proof.core.step s = .next (microStep s) := step_inside_tick hr (hm 0 m.succ_pos)
    simp only [Host.Core.run, hstep]
    exact ih ((microStep_resetWaiting s).trans hr) fun k hk => hm (k + 1) (Nat.succ_lt_succ hk)

/-- Settles O53: the number of steps is that of the first phase at which the tick is over. -/
theorem tickIsItsPhases : Obligations.TickIsItsPhases := by
  intro s hidle hr
  have hends : ∃ n, (tickAt n s).phase = .idle := ⟨37, phasesLeft_eq_zero (Nat.le_zero.mp (tickAt_phasesLeft 37 s))⟩
  have hbefore : ∀ m < Nat.find hends, (tickAt m s).phase ≠ .idle := fun m hm => Nat.find_min hends hm
  have hlast : Nat.find hends ≤ 37 := Nat.find_min' hends (phasesLeft_eq_zero (Nat.le_zero.mp (tickAt_phasesLeft 37 s)))
  have hafter := tickAt_of_idle (Nat.find_spec hends)
  have hrun : ∀ m ≤ Nat.find hends, Host.Core.run Sys2Proof.core m (s.goto .actions) = .next (tickAt m s) :=
    fun m hm => run_eq_iterate hr fun k hk => hbefore k (lt_of_lt_of_le hk hm)
  have htick : runTick s = tickAt (Nat.find hends) s := (runTick_eq_tickAt s).trans (hafter 37 hlast)
  exact ⟨Nat.find hends, tickAt (Nat.find hends) s, hlast, hrun _ le_rfl, htick ▸ if_pos hidle, hrun, hbefore, hafter,
    Nat.find_spec hends, tickAt_chan_of_idle _ s (Nat.find_spec hends), (tickAt_setup s (Nat.find hends)).requests⟩

end

end Sys2Proof.Machine
end

section
/-! SUPPORT. What a whole tick keeps: the mode and the mailbox, the places in the song of a frozen tick, and the gate
bits of a tick that honours a Pause or a Stop (R141, R144, R155, R334, R340). -/

namespace Sys2Proof.Machine

/-! ## After the action -/

section
variable {s t u : State}

theorem phaseAfter_ne_actions (p : Phase) (s : State) : phaseAfter p s ≠ .actions := by
  cases p with
  | idle | actions | sharedOut | tickN | noteStart | tickNEffects | getNewNotes => exact Phase.noConfusion
  | filter | enter | tick0 | dispatch | waveExec | pulseExec | nextChannel =>
    simp only [phaseAfter, phaseAfterPulse]
    split_ifs <;> exact Phase.noConfusion

theorem tickAt_succ_ne_actions (n : Nat) (s : State) : (tickAt (n + 1) s).phase ≠ .actions := by
  rw [tickAt_succ, microStep_phase rfl]; exact phaseAfter_ne_actions _ _

/-- Whatever holds once the action has been taken and is kept by every later phase holds after each of them. -/
theorem tickAt_succ_induction {P : State → Prop} (hstart : P (tickAt 1 s))
    (hstep : ∀ n, (tickAt (n + 1) s).phase ≠ .idle → (tickAt (n + 1) s).phase ≠ .actions → P (tickAt (n + 1) s) →
      P (microStep (tickAt (n + 1) s))) (n : Nat) : P (tickAt (n + 1) s) := by
  induction n with
  | zero => exact hstart
  | succ n ih =>
    rw [tickAt_succ]
    by_cases hidle : (tickAt (n + 1) s).phase = .idle
    · rwa [microStep_idle hidle]
    · exact hstep n hidle (tickAt_succ_ne_actions n s) ih

theorem runTick_induction {P : State → Prop} (hstart : P (tickAt 1 s))
    (hstep : ∀ u, u.phase ≠ .idle → u.phase ≠ .actions → P u → P (microStep u)) : P (runTick s) :=
  runTick_eq_tickAt s ▸ tickAt_succ_induction hstart (fun _ => hstep _) 36

/-- The state in which the first phase of a tick runs the action: the mailbox is empty (R141). -/
def State.mailTaken (s : State) : State := { s.goto .actions with action := 0#2 }

/-- What the first phase runs: the action it finds. -/
def State.actionTaken (s : State) : State := perform (decodeAction (s.action.setWidth 8)) s.mailTaken

theorem tickAt_one (s : State) : tickAt 1 s = s.actionTaken.goto .filter :=
  microStep_actions (s := s.goto .actions) rfl

/-- The four actions (R87). -/
theorem actionTaken_cases (s : State) :
    (s.action = 0#2 ∧ s.actionTaken = s.mailTaken) ∨ (s.action = 1#2 ∧ s.actionTaken = startSong s.mailTaken) ∨
    (s.action = 2#2 ∧ s.actionTaken = pauseSong s.mailTaken) ∨
    (s.action = 3#2 ∧ s.actionTaken = stopSong s.mailTaken) := by
  have hrun : s.actionTaken = _ := perform_action s.action s.mailTaken
  have haction : s.action = 0#2 ∨ s.action = 1#2 ∨ s.action = 2#2 ∨ s.action = 3#2 := by bv_omega
  rcases haction with h | h | h | h <;> rw [hrun, h]
  · exact .inl ⟨rfl, rfl⟩
  · exact .inr (.inl ⟨rfl, rfl⟩)
  · exact .inr (.inr (.inl ⟨rfl, rfl⟩))
  · exact .inr (.inr (.inr ⟨rfl, rfl⟩))

theorem mailTaken_ch (s : State) (c : Chan) : s.mailTaken.ch c = s.ch c := by cases c <;> rfl

/-! ## The mode and the mailbox (R87, R141, R334, R340) -/

/-- An action leaves the mailbox empty, or with the Stop of a Start that failed, and only a Start clears `FATAL`. -/
theorem actionTaken_control (s : State) :
    s.actionTaken.playing =
      (if s.action = 1#2 ∧ s.songLen ≠ 0x00#8 then true
       else if s.action = 2#2 ∨ s.action = 3#2 then false else s.playing) ∧
    (s.actionTaken.action = 0#2 ∨ (s.actionTaken.action = 3#2 ∧ s.actionTaken.fatal ≠ 0#7)) ∧
    (s.action ≠ 1#2 → s.actionTaken.fatal = s.fatal) := by
  obtain ⟨⟨hpause, hpaction, hpfatal, -⟩, -⟩ := pauseSong_spec s.mailTaken
  obtain ⟨⟨hstop, hsaction, hsfatal, -⟩, -⟩ := stopSong_spec s.mailTaken
  rcases actionTaken_cases s with ⟨h, ht⟩ | ⟨h, ht⟩ | ⟨h, ht⟩ | ⟨h, ht⟩ <;> rw [ht]
  · exact ⟨by simp [h, State.mailTaken], .inl rfl, fun _ => rfl⟩
  · by_cases hempty : s.songLen = 0x00#8
    · rw [startSong_of_empty (s := s.mailTaken) hempty]
      exact ⟨by simp [h, hempty, State.mailTaken], .inr ⟨rfl, (by decide : (0x40#7) ≠ 0#7)⟩, fun hne => absurd h hne⟩
    · obtain ⟨-, -, hplaying, -, hbad, hlegal, -⟩ := startSong_spec (s := s.mailTaken) hempty
      refine ⟨hplaying.trans (if_pos ⟨h, hempty⟩).symm, ?_, fun hne => absurd h hne⟩
      by_cases hb : ∃ c, 208#8 ≤ s.mailTaken.orderPatt c (startIndex c s.mailTaken)
      · obtain ⟨hfatal, haction⟩ := hbad hb
        exact .inr ⟨haction, hfatal ▸ by decide⟩
      · exact .inl (hlegal hb).2
  · exact ⟨hpause.trans (by simp [h]), .inl hpaction, fun _ => hpfatal⟩
  · exact ⟨hstop.trans (by simp [h]), .inl hsaction, fun _ => hsfatal⟩

theorem Raised.refl (s : State) : Raised s s := .inl ⟨rfl, rfl⟩

theorem Raised.fatal_kept (h : Raised s t) : t.fatal &&& s.fatal = s.fatal := by
  rcases h with ⟨hfatal, -⟩ | ⟨causes, -, hfatal, -⟩
  · rw [hfatal, BitVec.and_self]
  · rw [hfatal]; ext; simp +contextual

theorem Raised.mailbox (h : Raised s t) (hs : s.action = 0#2 ∨ (s.action = 3#2 ∧ s.fatal ≠ 0#7)) :
    t.action = 0#2 ∨ (t.action = 3#2 ∧ t.fatal ≠ 0#7) := by
  rcases h with ⟨hfatal, haction⟩ | ⟨causes, hcauses, hfatal, haction⟩
  · rwa [hfatal, haction]
  · exact .inr ⟨haction, fun h0 => hcauses (BitVec.or_eq_zero_iff.mp (hfatal.symm.trans h0)).2⟩

/-! ## The write-outs -/

/-- The write-out of the channel, whichever it is, and where it leads (R150, R305). -/
theorem nextChannel_eq (s : State) :
    nextChannel s =
      { writeChannel s.chan s with
        chan := channelAfterwards s.chan, phase := if s.chan = .c2 then .idle else .enter } := by
  unfold nextChannel
  cases s.chan <;> rfl

/-- A change of the image and of the place in the tick: no channel and no register of the mode. -/
def KeepsPlayer (s t : State) : Prop :=
  t.playing = s.playing ∧ t.fatal = s.fatal ∧ t.action = s.action ∧ ∀ c, t.ch c = s.ch c

theorem KeepsPlayer.trans (h : KeepsPlayer s t) (k : KeepsPlayer t u) : KeepsPlayer s u := by
  obtain ⟨hplaying, hfatal, haction, hch⟩ := h
  obtain ⟨kplaying, kfatal, kaction, kch⟩ := k
  exact ⟨kplaying.trans hplaying, kfatal.trans hfatal, kaction.trans haction, fun c => (kch c).trans (hch c)⟩

theorem setReg_keepsPlayer (s : State) (a : Fin 25) (v : Byte) : KeepsPlayer s (s.setReg a v) :=
  ⟨rfl, rfl, rfl, setReg_ch s a v⟩

theorem setPlace_keepsPlayer (s : State) (c : Chan) (p : Phase) : KeepsPlayer s { s with chan := c, phase := p } :=
  ⟨rfl, rfl, rfl, fun d => by cases d <;> rfl⟩

theorem writeChannel_keepsPlayer (c : Chan) (s : State) : KeepsPlayer s (writeChannel c s) :=
  ((((setReg_keepsPlayer s _ _).trans (setReg_keepsPlayer _ _ _)).trans (setReg_keepsPlayer _ _ _)).trans
    (setReg_keepsPlayer _ _ _)).trans (setReg_keepsPlayer _ _ _)

theorem writeShared_keepsPlayer (s : State) : KeepsPlayer s (writeShared s) :=
  (((setReg_keepsPlayer s _ _).trans (setReg_keepsPlayer _ _ _)).trans (setReg_keepsPlayer _ _ _)).trans
    (setReg_keepsPlayer _ _ _)

/-- A write-out changes no channel and no register of the mode (R305, R307). -/
theorem microStep_writeOut (h : s.phase = .sharedOut ∨ s.phase = .nextChannel) : KeepsPlayer s (microStep s) := by
  rcases h with h | h
  · rw [microStep_sharedOut h]
    exact (writeShared_keepsPlayer s).trans (setPlace_keepsPlayer _ _ _)
  · rw [microStep_nextChannel h, nextChannel_eq]
    exact (writeChannel_keepsPlayer s.chan s).trans (setPlace_keepsPlayer _ _ _)

/-- After the action a phase keeps the mode, and touches `FATAL` and the mailbox by raising causes only. -/
theorem microStep_control (hidle : s.phase ≠ .idle) (hactions : s.phase ≠ .actions) :
    (microStep s).playing = s.playing ∧ Raised s (microStep s) := by
  by_cases hout : s.phase = .sharedOut ∨ s.phase = .nextChannel
  · obtain ⟨hplaying, hfatal, haction, -⟩ := microStep_writeOut hout
    exact ⟨hplaying, .inl ⟨hfatal, haction⟩⟩
  · obtain ⟨-, hplaying, hraised, -⟩ := microStep_stepped (s := s) (by simp [hidle, hactions, not_or.mp hout])
    exact ⟨hplaying, hraised⟩

theorem runTick_control (s : State) : (runTick s).playing = s.actionTaken.playing ∧ Raised s.actionTaken (runTick s) := by
  refine runTick_induction (P := fun u => u.playing = s.actionTaken.playing ∧ Raised s.actionTaken u) ?_ ?_
  · rw [tickAt_one]
    exact ⟨rfl, .inl ⟨rfl, rfl⟩⟩
  · rintro u hidle hactions ⟨hplaying, hraised⟩
    obtain ⟨kplaying, kraised⟩ := microStep_control hidle hactions
    exact ⟨kplaying.trans hplaying, hraised.trans kraised⟩

/-- Settles O55: the action sets the mode, and every later phase keeps it and raises causes only. -/
theorem tickTakesOneAction : Obligations.TickTakesOneAction := by
  intro s hidle
  obtain ⟨hmode, hmail, hfatal⟩ := actionTaken_control s
  obtain ⟨hplaying, hraised⟩ := runTick_control s
  exact ⟨runTick s, if_pos hidle, hraised.mailbox hmail, hplaying.trans hmode, fun hstart => hfatal hstart ▸ hraised.fatal_kept⟩

/-! ## The places in the song of a frozen tick (R155) -/

/-- A channel's place in the song, its instrument and its pending command and note. -/
def Channel.place (x : Channel) :=
  (x.songptr, x.curOrder, x.pattnum, x.pattrow, x.trans, x.instr, x.newcommand, x.newcmddata, x.newnote)

theorem tickN_place (s : State) : ((tickN s).ch s.chan).place = (s.ch s.chan).place := by
  by_cases h : 0x80#8 ≤ (s.ch s.chan).tick
  · rw [(tickN_of_wrapped h).1]; rfl
  · rw [tickN_of_not_wrapped h]

theorem noteTaken_place (s : State) (x : Channel) : (x.noteTaken s).place = x.place := by
  unfold Channel.noteTaken
  split_ifs <;> rfl

theorem endOfPattern_frozen (h : s.playing = false) : endOfPattern s = s :=
  if_neg (by simp [h])

/-- Only the fetch of a row and the end of the pattern move a channel (R155). -/
theorem channelAfter_place (hfrozen : s.playing = false) (hp : s.phase ≠ .getNewNotes) :
    (channelAfter s).place = (s.ch s.chan).place := by
  unfold channelAfter
  cases h : s.phase with
  | getNewNotes => exact absurd h hp
  | tickN => exact tickN_place s
  | tick0 => exact (noteTaken_place _ _).trans (by rw [endOfPattern_frozen hfrozen])
  | idle | actions | filter | sharedOut | enter | noteStart | dispatch | waveExec | tickNEffects | pulseExec
  | nextChannel => rfl

/-- A row is fetched while playing only (R156). -/
theorem phaseAfter_ne_getNewNotes (hfrozen : s.playing = false) (p : Phase) : phaseAfter p s ≠ .getNewNotes := by
  cases p with
  | idle | actions | sharedOut | tickN | noteStart | tickNEffects | getNewNotes => exact Phase.noConfusion
  | filter | enter | tick0 | dispatch | waveExec | pulseExec | nextChannel =>
    simp only [phaseAfter, phaseAfterPulse, hfrozen, Bool.false_eq_true, false_and, if_false]
    split_ifs <;> exact Phase.noConfusion

/-- What a phase leaves of every channel, given what it leaves of the channel being stepped. -/
theorem microStep_kept {α : Type} (f : Channel → α) (hf : ∀ x : Channel, f x.score = f x) (hidle : s.phase ≠ .idle)
    (hactions : s.phase ≠ .actions) (hcur : f (channelAfter s) = f (s.ch s.chan)) (c : Chan) :
    f ((microStep s).ch c) = f (s.ch c) := by
  by_cases hout : s.phase = .sharedOut ∨ s.phase = .nextChannel
  · obtain ⟨-, -, -, hch⟩ := microStep_writeOut hout
    rw [hch]
  · obtain ⟨-, -, -, -, hscore, hothers⟩ := microStep_stepped (s := s) (by simp [hidle, hactions, not_or.mp hout])
    rw [← hf ((microStep s).ch c)]
    by_cases hc : c = s.chan
    · rw [hc, hscore, hf, hcur]
    · rw [hothers c hc, hf]

/-- Settles O57: in a frozen tick no phase that moves a channel is reached. -/
theorem frozenTickStaysInPlace : Obligations.FrozenTickStaysInPlace := by
  intro s hidle hfrozen hnone
  have hstart : tickAt 1 s = s.mailTaken.goto .filter := by
    rcases actionTaken_cases s with ⟨-, ht⟩ | ⟨h, -⟩ | ⟨h, -⟩ | ⟨h, -⟩
    · rw [tickAt_one, ht]
    all_goals exact absurd (hnone.symm.trans h) (by decide)
  obtain ⟨kfrozen, -, kplace⟩ :
      (runTick s).playing = false ∧ (runTick s).phase ≠ .getNewNotes ∧
      ∀ c, ((runTick s).ch c).place = (s.ch c).place := by
    refine runTick_induction (P := fun u => u.playing = false ∧ u.phase ≠ .getNewNotes ∧
      ∀ c, (u.ch c).place = (s.ch c).place) ?_ ?_
    · rw [hstart]
      exact ⟨hfrozen, Phase.noConfusion, fun c => by rw [goto_ch, mailTaken_ch]⟩
    · rintro u huidle huactions ⟨hu, hrow, hplace⟩
      refine ⟨(microStep_control huidle huactions).1.trans hu,
        by rw [microStep_phase rfl]; exact phaseAfter_ne_getNewNotes hu _, fun c => ?_⟩
      rw [microStep_kept Channel.place (fun _ => rfl) huidle huactions (channelAfter_place hu hrow), hplace]
  refine ⟨runTick s, if_pos hidle, kfrozen, fun c => ?_⟩
  have hplace := kplace c
  simpa only [Channel.place, Prod.mk.injEq] using hplace

end

end Sys2Proof.Machine
end

section
/-! SUPPORT. How far a tick has come, and the gate bits of a tick that honours a Pause or a Stop (R144, R306). -/

namespace Sys2Proof.Machine

/-! ## The channels that a tick is through with -/

/-- The channels whose write-out has been done when a tick stands at phase `p` with channel `c`. -/
@[simp] def channelsDone (p : Phase) (c : Chan) : Nat :=
  match p with
  | .idle => 3
  | .actions | .filter | .sharedOut => 0
  | .enter | .tickN | .tick0 | .noteStart | .dispatch | .waveExec | .tickNEffects | .pulseExec | .getNewNotes
  | .nextChannel => c.idx

section
variable {s t u : State}

/-- A write-out of a channel is one channel more; no other phase counts. -/
theorem channelsDone_microStep {p : Phase} (h : s.phase = p) (hidle : p ≠ .idle) :
    channelsDone (microStep s).phase (microStep s).chan =
      if p = .nextChannel then s.chan.idx + 1 else channelsDone p s.chan := by
  rw [microStep_phase h, microStep_chan h]
  cases p with
  | idle => exact absurd rfl hidle
  | nextChannel => cases hc : s.chan <;> simp [hc, Chan.idx]
  | actions | sharedOut | tickN | noteStart | tickNEffects | getNewNotes => rfl
  | filter | enter | tick0 | dispatch | waveExec | pulseExec =>
    simp only [phaseAfter, phaseAfterPulse, chanAfter, reduceCtorEq, if_false]
    split_ifs <;> rfl

theorem channelsDone_runTick (s : State) : channelsDone (runTick s).phase (runTick s).chan = 3 := by
  rw [runTick_phase]; rfl

/-! ## The waveform bytes -/

theorem writeShared_waveByte (s : State) (c : Chan) :
    (writeShared s).regAt (regIdx c 4) = s.regAt (regIdx c 4) := by
  have hne : ∀ a : Fin 25, 21 ≤ a.val → regIdx c 4 ≠ a := fun a ha h => by
    have hval : (regIdx c 4).val ≤ 18 := by cases c <;> decide
    omega
  unfold writeShared
  rw [setReg_regAt_ne _ _ _ _ (hne _ (by decide)), setReg_regAt_ne _ _ _ _ (hne _ (by decide)),
    setReg_regAt_ne _ _ _ _ (hne _ (by decide)), setReg_regAt_ne _ _ _ _ (hne _ (by decide))]

/-- The write-out of a channel writes its waveform byte (R305, R306). -/
theorem writeChannel_waveByte (s : State) (c d : Chan) :
    (writeChannel d s).regAt (regIdx c 4) = if c = d then waveGateByte (s.ch c) else s.regAt (regIdx c 4) := by
  have hother : ∀ k : Fin 7, k ≠ 4 → regIdx c 4 ≠ regIdx d k := fun k hk h => hk ((regIdx_inj_iff c d 4 k).mp h).2.symm
  unfold writeChannel
  by_cases hc : c = d
  · rw [if_pos hc, hc, setReg_regAt_self]
  · rw [if_neg hc, setReg_regAt_ne _ _ _ _ fun h => hc ((regIdx_inj_iff c d 4 4).mp h).1,
      setReg_regAt_ne _ _ _ _ (hother 3 (by decide)), setReg_regAt_ne _ _ _ _ (hother 2 (by decide)),
      setReg_regAt_ne _ _ _ _ (hother 1 (by decide)), setReg_regAt_ne _ _ _ _ (hother 0 (by decide))]

/-- A waveform byte is written in the write-out of its channel and nowhere else after the action. -/
theorem microStep_waveByte (hidle : s.phase ≠ .idle) (hactions : s.phase ≠ .actions) (c : Chan) :
    (microStep s).regAt (regIdx c 4) =
      if s.phase = .nextChannel ∧ c = s.chan then waveGateByte (s.ch c) else s.regAt (regIdx c 4) := by
  by_cases hnext : s.phase = .nextChannel
  · rw [microStep_nextChannel hnext, nextChannel_eq, if_congr (and_iff_right hnext) rfl rfl]
    exact writeChannel_waveByte s c s.chan
  rw [if_neg fun h => hnext h.1]
  by_cases hshared : s.phase = .sharedOut
  · rw [microStep_sharedOut hshared]
    exact writeShared_waveByte s c
  · obtain ⟨-, -, -, hbytes, -⟩ := microStep_stepped (s := s) (by simp [hidle, hactions, hnext, hshared])
    exact hbytes c

/-- A closed gate clears bit 0 of the waveform byte, muted or not (R306). -/
theorem waveGateByte_closed {x : Channel} (h : x.gate = 0xFE#8) : (waveGateByte x).getLsbD 0 = false := by
  unfold waveGateByte
  rw [h]
  split_ifs <;> simp

/-! ## A tick without notes -/

/-- Every channel's gate is closed and no note is pending: what a Pause and a Stop make of the channels (R143). -/
def Silenced (s : State) : Prop := ∀ c, (s.ch c).gate = 0xFE#8 ∧ (s.ch c).nnPend = false

/-- The registers of a channel that decide whether it stays silent. -/
def Channel.gating (x : Channel) : Byte × Bool := (x.gate, x.nnPend)

theorem tickN_gating (s : State) : ((tickN s).ch s.chan).gating = (s.ch s.chan).gating := by
  by_cases h : 0x80#8 ≤ (s.ch s.chan).tick
  · rw [(tickN_of_wrapped h).1]; rfl
  · rw [tickN_of_not_wrapped h]

theorem noteTaken_gating (s : State) (x : Channel) : (x.noteTaken s).gating = x.gating := by
  unfold Channel.noteTaken
  split_ifs <;> rfl

/-- Without a pending note a frozen channel keeps its gate, in every phase but the two that start and fetch notes. -/
theorem channelAfter_gating (hfrozen : s.playing = false) (hpend : (s.ch s.chan).nnPend = false)
    (hp : s.phase ≠ .noteStart ∧ s.phase ≠ .getNewNotes) :
    (channelAfter s).gating = (s.ch s.chan).gating := by
  obtain ⟨hnote, hrow⟩ := hp
  unfold channelAfter
  cases h : s.phase with
  | noteStart => exact absurd h hnote
  | getNewNotes => exact absurd h hrow
  | tickN => exact tickN_gating s
  | tick0 => exact (noteTaken_gating _ _).trans (by rw [endOfPattern_frozen hfrozen])
  | dispatch => exact congrArg (Prod.mk (s.ch s.chan).gate) hpend.symm
  | idle | actions | filter | sharedOut | enter | waveExec | tickNEffects | pulseExec | nextChannel => rfl

/-- A note is started only if one is pending (R176). -/
theorem phaseAfter_ne_noteStart (hpend : (s.ch s.chan).nnPend = false) (p : Phase) : phaseAfter p s ≠ .noteStart := by
  cases p with
  | idle | actions | sharedOut | tickN | noteStart | tickNEffects | getNewNotes => exact Phase.noConfusion
  | tick0 => rw [phaseAfter, hpend, if_neg (by simp)]; exact Phase.noConfusion
  | filter | enter | dispatch | waveExec | pulseExec | nextChannel =>
    simp only [phaseAfter, phaseAfterPulse]
    split_ifs <;> exact Phase.noConfusion

/-- The tick is frozen and silent, and the channels it is through with show it in their waveform bytes. -/
def SilentSoFar (s : State) : Prop :=
  s.playing = false ∧ Silenced s ∧ (s.phase ≠ .noteStart ∧ s.phase ≠ .getNewNotes) ∧
  ∀ c, c.idx < channelsDone s.phase s.chan → (s.regAt (regIdx c 4)).getLsbD 0 = false

theorem microStep_silentSoFar (hidle : s.phase ≠ .idle) (hactions : s.phase ≠ .actions) (h : SilentSoFar s) :
    SilentSoFar (microStep s) := by
  obtain ⟨hfrozen, hsilent, hnotes, hbytes⟩ := h
  have hpend := (hsilent s.chan).2
  have hgating := microStep_kept Channel.gating (fun _ => rfl) hidle hactions (channelAfter_gating hfrozen hpend hnotes)
  refine ⟨(microStep_control hidle hactions).1.trans hfrozen, fun c => ?_, ?_, fun c hc => ?_⟩
  · obtain ⟨hgate, hnone⟩ := hsilent c
    exact ⟨(congrArg Prod.fst (hgating c)).trans hgate, (congrArg Prod.snd (hgating c)).trans hnone⟩
  · rw [microStep_phase rfl]
    exact ⟨phaseAfter_ne_noteStart hpend _, phaseAfter_ne_getNewNotes hfrozen _⟩
  · rw [microStep_waveByte hidle hactions]
    split_ifs with hout
    · exact waveGateByte_closed (hsilent c).1
    · refine hbytes c ?_
      rw [channelsDone_microStep rfl hidle] at hc
      by_cases hnext : s.phase = .nextChannel
      · have hother : c.idx ≠ s.chan.idx := fun h => hout ⟨hnext, by rw [← chanAt_idx c, h, chanAt_idx]⟩
        rw [if_pos hnext] at hc
        rw [hnext]
        exact lt_of_le_of_ne (Nat.le_of_lt_succ hc) hother
      · rwa [if_neg hnext] at hc

theorem runTick_silent (hfrozen : s.actionTaken.playing = false) (hsilent : Silenced s.actionTaken) :
    SilentSoFar (runTick s) := by
  refine runTick_induction ?_ fun u hidle hactions h => microStep_silentSoFar hidle hactions h
  rw [tickAt_one]
  exact ⟨hfrozen, fun c => by rw [goto_ch]; exact hsilent c, ⟨Phase.noConfusion, Phase.noConfusion⟩,
    fun c hc => absurd hc (Nat.not_lt_zero _)⟩

/-- A Pause and a Stop freeze and silence every channel (R143, R144). -/
theorem actionTaken_silenced (h : s.action = 2#2 ∨ s.action = 3#2) :
    s.actionTaken.playing = false ∧ Silenced s.actionTaken := by
  obtain ⟨⟨hpause, -⟩, hpaused⟩ := pauseSong_spec s.mailTaken
  obtain ⟨⟨hstop, -⟩, hstopped⟩ := stopSong_spec s.mailTaken
  rcases actionTaken_cases s with ⟨ha, -⟩ | ⟨ha, -⟩ | ⟨-, ht⟩ | ⟨-, ht⟩
  · exact absurd h (by rw [ha]; decide)
  · exact absurd h (by rw [ha]; decide)
  · rw [ht]; exact ⟨hpause, fun c => by rw [hpaused]; exact ⟨rfl, rfl⟩⟩
  · rw [ht]; exact ⟨hstop, fun c => by rw [hstopped]; exact ⟨rfl, rfl⟩⟩

/-- Settles O56: the action silences the channels, and the write-outs of the tick show it. -/
theorem stopClearsGateBitsWithinItsTick : Obligations.StopClearsGateBitsWithinItsTick := by
  intro s hidle h
  obtain ⟨hfrozen, hsilenced⟩ := actionTaken_silenced h
  obtain ⟨kfrozen, ksilenced, -, kbytes⟩ := runTick_silent hfrozen hsilenced
  refine ⟨runTick s, if_pos hidle, kfrozen, fun c => ⟨(ksilenced c).1, kbytes c ?_⟩⟩
  rw [channelsDone_runTick]
  cases c <;> decide

end

end Sys2Proof.Machine
end

section
/-! SUPPORT. The tick counter of a channel over a tick, and over a row period (R151, R152, R157). -/

namespace Sys2Proof.Machine

/-! ## Where a tick stands with respect to the tick counters -/

/-- The place of a phase in a tick: three for each channel, before its Enter, at its tick 0 or tick N, and after. -/
@[simp] def tickPosition (p : Phase) (c : Chan) : Nat :=
  match p with
  | .actions | .filter | .sharedOut => 0
  | .enter => 3 * c.idx
  | .tickN | .tick0 => 3 * c.idx + 1
  | .noteStart | .dispatch | .waveExec | .tickNEffects | .pulseExec | .getNewNotes | .nextChannel => 3 * c.idx + 2
  | .idle => 9

section
variable {s t u : State} {c : Chan}

theorem tickPosition_microStep {p : Phase} (h : s.phase = p) :
    tickPosition (microStep s).phase (microStep s).chan =
      if p = .enter ∨ p = .tickN ∨ p = .tick0 ∨ p = .nextChannel then tickPosition p s.chan + 1
      else tickPosition p s.chan := by
  rw [microStep_phase h, microStep_chan h]
  cases p with
  | nextChannel => cases hc : s.chan <;> simp [hc, Chan.idx]
  | idle | actions | sharedOut | tickN | noteStart | tickNEffects | getNewNotes => simp [Chan.idx]
  | filter | enter | tick0 | dispatch | waveExec | pulseExec =>
    simp only [phaseAfter, phaseAfterPulse, chanAfter, reduceCtorEq, true_or, or_true, or_self, if_true, if_false]
    split_ifs <;> rfl

theorem idx_le_two (c : Chan) : c.idx ≤ 2 := by cases c <;> decide

theorem idx_inj {d : Chan} : d.idx = c.idx ↔ d = c :=
  ⟨fun h => by rw [← chanAt_idx d, h, chanAt_idx], congrArg Chan.idx⟩

/-- A counter is read in one place of the tick only. -/
theorem reads_of_tickPosition {p : Phase} {d : Chan} (h : tickPosition p d = 3 * c.idx + 1) :
    (p = .tickN ∨ p = .tick0) ∧ d = c := by
  cases p with
  | tickN => exact ⟨.inl rfl, idx_inj.mp (by simp only [tickPosition] at h; omega)⟩
  | tick0 => exact ⟨.inr rfl, idx_inj.mp (by simp only [tickPosition] at h; omega)⟩
  | _ => simp only [tickPosition] at h; omega

/-! ## The tick counter in a phase -/

/-- Only Enter and tick N write the tick counter (R151, R152). -/
theorem channelAfter_tick (henter : s.phase ≠ .enter) (htickN : s.phase ≠ .tickN) :
    (channelAfter s).tick = (s.ch s.chan).tick := by
  unfold channelAfter
  cases h : s.phase with
  | enter => exact absurd h henter
  | tickN => exact absurd h htickN
  | tick0 =>
    have htaken : ∀ x : Channel, (x.noteTaken s).tick = x.tick := fun x => by
      unfold Channel.noteTaken
      split_ifs <;> rfl
    dsimp only
    rw [htaken, endOfPattern_eq]
    split_ifs
    · rw [setCh_ch_self]
    · rw [(sequencer_spec s.chan s).1]
    · rfl
  | getNewNotes =>
    dsimp only
    split_ifs
    · rfl
    · exact (fetchedRow_frame _ s).2
  | idle | actions | filter | sharedOut | noteStart | dispatch | waveExec | tickNEffects | pulseExec | nextChannel => rfl

/-- The tick counter of a channel changes in its own Enter and tick N only. -/
theorem microStep_tick_of_ne (hidle : s.phase ≠ .idle) (hactions : s.phase ≠ .actions)
    (h : (s.phase = .enter ∨ s.phase = .tickN) → c ≠ s.chan) : ((microStep s).ch c).tick = (s.ch c).tick := by
  by_cases hout : s.phase = .sharedOut ∨ s.phase = .nextChannel
  · obtain ⟨-, -, -, hch⟩ := microStep_writeOut hout
    rw [hch]
  · obtain ⟨-, -, -, -, hscore, hothers⟩ := microStep_stepped (s := s) (by simp [hidle, hactions, not_or.mp hout])
    by_cases hc : c = s.chan
    · have hkept := channelAfter_tick (s := s) (fun he => h (.inl he) hc) fun hn => h (.inr hn) hc
      have hcur : ((microStep s).ch s.chan).score.tick = (channelAfter s).score.tick := congrArg Channel.tick hscore
      rw [hc]
      exact hcur.trans hkept
    · have hother : ((microStep s).ch c).score.tick = (s.ch c).score.tick := congrArg Channel.tick (hothers c hc)
      exact hother

theorem microStep_tick_enter (h : s.phase = .enter) :
    ((microStep s).ch s.chan).tick = (s.ch s.chan).tick - 1#8 := by
  rw [microStep_enter h, (enterChannel_spec s).1]

theorem microStep_tick_tickN (h : s.phase = .tickN) :
    ((microStep s).ch s.chan).tick = ((tickN s).ch s.chan).tick := by
  rw [microStep_tickN h, goto_ch]

/-! ## The tick counter over a tick -/

/-- Where a tick stands at `s`, the counter of channel `c` is as the tick found it, `old`, or decremented, or as the
tick leaves it, `new`; and tick 0 is where it has reached 0. -/
def TickCounted (c : Chan) (old new : Byte) (s : State) : Prop :=
  (tickPosition s.phase s.chan ≤ 3 * c.idx → (s.ch c).tick = old) ∧
  (tickPosition s.phase s.chan = 3 * c.idx + 1 → (s.ch c).tick = old - 1#8 ∧ (s.phase = .tick0 ↔ old = 1#8)) ∧
  (3 * c.idx + 2 ≤ tickPosition s.phase s.chan → (s.ch c).tick = new)

/-- A phase that neither enters nor reads the channel. -/
theorem TickCounted.of_same {old new : Byte} (h : TickCounted c old new s) (htick : (t.ch c).tick = (s.ch c).tick)
    (hbefore : tickPosition t.phase t.chan ≤ 3 * c.idx → tickPosition s.phase s.chan ≤ 3 * c.idx)
    (hat : tickPosition t.phase t.chan ≠ 3 * c.idx + 1)
    (hafter : 3 * c.idx + 2 ≤ tickPosition t.phase t.chan → 3 * c.idx + 2 ≤ tickPosition s.phase s.chan) :
    TickCounted c old new t := by
  obtain ⟨hold, -, hnew⟩ := h
  exact ⟨fun ht => htick.trans (hold (hbefore ht)), fun ht => absurd ht hat, fun ht => htick.trans (hnew (hafter ht))⟩

/-- A phase of another channel, or one that leaves the counters alone, neither enters nor reads channel `c`. -/
theorem tickPosition_elsewhere
    (hother : (s.phase = .enter ∨ s.phase = .tickN ∨ s.phase = .tick0) → s.chan.idx ≠ c.idx) :
    let before := tickPosition s.phase s.chan
    let after := tickPosition (microStep s).phase (microStep s).chan
    (after ≤ 3 * c.idx → before ≤ 3 * c.idx) ∧ after ≠ 3 * c.idx + 1 ∧
    (3 * c.idx + 2 ≤ after → 3 * c.idx + 2 ≤ before) := by
  intro before after
  have hafter : after = _ := tickPosition_microStep rfl
  have hbefore : before = tickPosition s.phase s.chan := rfl
  clear_value before after
  have hidx := idx_le_two c
  cases hp : s.phase with
  | enter | tickN | tick0 =>
    have hne := hother (by simp [hp])
    simp only [hp, tickPosition, true_or, or_true, if_true] at hafter hbefore
    omega
  | nextChannel =>
    simp only [hp, tickPosition, or_true, if_true] at hafter hbefore
    omega
  | idle | actions | filter | sharedOut | noteStart | dispatch | waveExec | tickNEffects | pulseExec | getNewNotes =>
    simp only [hp, tickPosition, reduceCtorEq, or_self, if_false] at hafter hbefore
    omega

/-- A phase keeps count, if tick N leaves the counter as it should. -/
theorem microStep_tickCounted {old new : Byte} (hidle : s.phase ≠ .idle) (hactions : s.phase ≠ .actions)
    (hread : s.phase = .tickN → s.chan = c → (s.ch c).tick = old - 1#8 → old ≠ 1#8 → ((tickN s).ch c).tick = new)
    (hzero : old = 1#8 → new = 0x00#8) (h : TickCounted c old new s) : TickCounted c old new (microStep s) := by
  by_cases hhere : (s.phase = .enter ∨ s.phase = .tickN ∨ s.phase = .tick0) ∧ s.chan = c
  · obtain ⟨hold, hat, -⟩ := h
    obtain ⟨hp | hp | hp, rfl⟩ := hhere
    · have hposition := (tickPosition_microStep hp).trans (if_pos (.inl rfl))
      have htick := hold (by rw [hp]; exact le_rfl)
      rw [tickPosition] at hposition
      refine ⟨fun hpos => absurd hpos (by omega), fun _ => ?_, fun hpos => absurd hpos (by omega)⟩
      rw [microStep_tick_enter hp, microStep_phase hp, phaseAfter, htick]
      exact ⟨rfl, by split_ifs with hone <;> simp [hone]⟩
    · have hposition := (tickPosition_microStep hp).trans (if_pos (.inr (.inl rfl)))
      obtain ⟨htick, hphase⟩ := hat (by rw [hp]; rfl)
      rw [tickPosition] at hposition
      refine ⟨fun hpos => absurd hpos (by omega), fun hpos => absurd hpos (by omega), fun _ => ?_⟩
      rw [microStep_tick_tickN hp]
      exact hread hp rfl htick fun hone => absurd (hp.symm.trans (hphase.mpr hone)) (by decide)
    · have hposition := (tickPosition_microStep hp).trans (if_pos (.inr (.inr (.inl rfl))))
      obtain ⟨htick, hphase⟩ := hat (by rw [hp]; rfl)
      have hone := hphase.mp hp
      rw [tickPosition] at hposition
      refine ⟨fun hpos => absurd hpos (by omega), fun hpos => absurd hpos (by omega), fun _ => ?_⟩
      rw [microStep_tick_of_ne hidle hactions (by simp [hp]), htick, hzero hone, hone]; rfl
  · have hother : (s.phase = .enter ∨ s.phase = .tickN ∨ s.phase = .tick0) → s.chan.idx ≠ c.idx := fun hp hc =>
      hhere ⟨hp, idx_inj.mp hc⟩
    have htick : ((microStep s).ch c).tick = (s.ch c).tick :=
      microStep_tick_of_ne hidle hactions fun hp hc => hhere ⟨hp.imp_right .inl, hc.symm⟩
    obtain ⟨hbefore, hat, hafter⟩ := tickPosition_elsewhere hother
    exact h.of_same htick hbefore hat hafter

/-- An action other than a Start leaves the tick counters alone. -/
theorem actionTaken_tick (hstart : s.action ≠ 1#2) (c : Chan) : (s.actionTaken.ch c).tick = (s.ch c).tick := by
  rcases actionTaken_cases s with ⟨-, ht⟩ | ⟨h, -⟩ | ⟨-, ht⟩ | ⟨-, ht⟩
  · rw [ht, mailTaken_ch]
  · exact absurd h hstart
  · rw [ht, (pauseSong_spec s.mailTaken).2, mailTaken_ch]; rfl
  · rw [ht, (stopSong_spec s.mailTaken).2, mailTaken_ch]; rfl

theorem tickPosition_microStep_le (s : State) :
    tickPosition (microStep s).phase (microStep s).chan ≤ tickPosition s.phase s.chan + 1 := by
  rw [tickPosition_microStep rfl]
  split_ifs <;> omega

/-- A tick passes the counter of every channel. -/
theorem exists_tickPosition (s : State) (c : Chan) :
    ∃ m, tickPosition (tickAt m s).phase (tickAt m s).chan = 3 * c.idx + 1 := by
  have hidx := idx_le_two c
  have hends : ∃ m, 3 * c.idx + 1 ≤ tickPosition (tickAt m s).phase (tickAt m s).chan := by
    refine ⟨37, ?_⟩
    rw [← runTick_eq_tickAt, runTick_phase, tickPosition]
    omega
  have hfirst := Nat.find_spec hends
  cases hm : Nat.find hends with
  | zero => rw [hm, tickAt_zero, goto_phase, tickPosition] at hfirst; omega
  | succ m =>
    have hbefore := Nat.find_min hends (m := m) (by omega)
    have hnext := tickPosition_microStep_le (tickAt m s)
    rw [hm] at hfirst
    rw [← tickAt_succ] at hnext
    exact ⟨m + 1, by omega⟩

/-- The counter of a channel over a tick that is not called for a Start, and whether the channel is at tick 0 in it. -/
theorem runTick_tick {old new : Byte} (hstart : s.action ≠ 1#2) (hold : (s.ch c).tick = old)
    (hread : ∀ m, (tickAt m s).phase = .tickN → (tickAt m s).chan = c → ((tickAt m s).ch c).tick = old - 1#8 →
      old ≠ 1#8 → ((tickN (tickAt m s)).ch c).tick = new)
    (hzero : old = 1#8 → new = 0x00#8) :
    ((runTick s).ch c).tick = new ∧ ((∃ m, (tickAt m s).phase = .tick0 ∧ (tickAt m s).chan = c) ↔ old = 1#8) := by
  have hidx := idx_le_two c
  have hfirst : TickCounted c old new (tickAt 1 s) := by
    rw [tickAt_one]
    exact ⟨fun _ => by rw [goto_ch, actionTaken_tick hstart, hold], fun h => absurd h (by simp),
      fun h => absurd h (by simp)⟩
  have hcounted : ∀ m, TickCounted c old new (tickAt (m + 1) s) :=
    tickAt_succ_induction hfirst fun m hidle hactions h => microStep_tickCounted hidle hactions (hread (m + 1)) hzero h
  refine ⟨?_, fun ⟨m, hp, hc⟩ => ?_, fun hone => ?_⟩
  · obtain ⟨-, -, hnew⟩ := hcounted 36
    rw [runTick_eq_tickAt]
    refine hnew ?_
    rw [← runTick_eq_tickAt, runTick_phase, tickPosition]
    omega
  · cases m with
    | zero => exact absurd hp (by simp)
    | succ m =>
      obtain ⟨-, hat, -⟩ := hcounted m
      exact (hat (by rw [hp, hc]; rfl)).2.mp hp
  · obtain ⟨m, hm⟩ := exists_tickPosition s c
    cases m with
    | zero => simp at hm
    | succ m =>
      obtain ⟨-, hat, -⟩ := hcounted m
      exact ⟨m + 1, (hat hm).2.mpr hone, (reads_of_tickPosition hm).2⟩

/-! ## Ticks in a row -/

theorem afterInstr_hTick (h : s.phase = .idle) : afterInstr .hTick s = runTick s :=
  congrArg (settled s) (if_pos h : exec .hTick s = .next (runTick s))

/-- No tick leaves a Start behind (R87). -/
theorem runTick_action_ne_start (s : State) : (runTick s).action ≠ 1#2 := by
  obtain ⟨-, hmail, -⟩ := actionTaken_control s
  obtain h | ⟨h, -⟩ := (runTick_control s).2.mailbox hmail <;> rw [h] <;> decide

/-- The counter at tempo `tempo` after `n` ticks of the row period have been counted off. -/
theorem toNat_countdown {tempo : Byte} {n : Nat} (hn : n ≤ tempo.toNat) :
    (tempo - BitVec.ofNat 8 n).toNat = tempo.toNat - n := by
  have htempo := tempo.isLt
  rw [BitVec.toNat_sub, BitVec.toNat_ofNat]
  omega

/-- The first tick of a row period reloads the counter from the tempo, the others count it down (R157). -/
theorem rowPeriod {tempo : Byte} (hidle : s.phase = .idle) (hstart : s.action ≠ 1#2) (htick : (s.ch c).tick = 0x00#8)
    (hlow : 2#8 ≤ tempo) (hhigh : tempo < 0x80#8)
    (hread : ∀ m, (tickAt m s).phase = .tickN → (tickAt m s).chan = c → ((tickAt m s).ch c).tempo = tempo) {n : Nat}
    (hn : n ≤ tempo.toNat) :
    let before := (afterInstr .hTick)^[n] s
    before.phase = .idle ∧ before.action ≠ 1#2 ∧ ((runTick before).ch c).tick = tempo - BitVec.ofNat 8 n ∧
    ((∃ m, (tickAt m before).phase = .tick0 ∧ (tickAt m before).chan = c) ↔ n = tempo.toNat) := by
  have hfew : 2 ≤ tempo.toNat := hlow
  have hmany : tempo.toNat < 128 := hhigh
  induction n with
  | zero =>
    have hreload : ∀ m, (tickAt m s).phase = .tickN → (tickAt m s).chan = c →
        ((tickAt m s).ch c).tick = 0x00#8 - 1#8 → (0x00#8 : Byte) ≠ 1#8 → ((tickN (tickAt m s)).ch c).tick = tempo := by
      intro m hp hc hwrapped _
      have htempo := hread m hp hc
      subst hc
      rw [(tickN_of_wrapped (by rw [hwrapped]; decide)).1]
      simp [htempo, hlow]
    obtain ⟨hafter, hvisited⟩ := runTick_tick hstart htick hreload fun h => absurd h (by decide)
    exact ⟨hidle, hstart, hafter.trans (by simp), hvisited.trans ⟨fun h => absurd h (by decide), fun h => by omega⟩⟩
  | succ n ih =>
    obtain ⟨kidle, -, ktick, -⟩ := ih (by omega)
    have hold := toNat_countdown (tempo := tempo) (n := n) (by omega)
    have hnew := toNat_countdown hn
    have hcount : tempo - BitVec.ofNat 8 n - 1#8 = tempo - BitVec.ofNat 8 (n + 1) := by bv_omega
    rw [Function.iterate_succ_apply', afterInstr_hTick kidle]
    have hplain : ∀ m, (tickAt m (runTick ((afterInstr .hTick)^[n] s))).phase = .tickN →
        (tickAt m (runTick ((afterInstr .hTick)^[n] s))).chan = c →
        ((tickAt m (runTick ((afterInstr .hTick)^[n] s))).ch c).tick = tempo - BitVec.ofNat 8 n - 1#8 →
        tempo - BitVec.ofNat 8 n ≠ 1#8 →
        ((tickN (tickAt m (runTick ((afterInstr .hTick)^[n] s)))).ch c).tick = tempo - BitVec.ofNat 8 (n + 1) := by
      intro m _ hc htick _
      rw [hcount] at htick
      subst hc
      rw [tickN_of_not_wrapped (by rw [htick]; bv_omega), htick]
    obtain ⟨hafter, hvisited⟩ := runTick_tick (runTick_action_ne_start _) ktick hplain fun h => by bv_omega
    exact ⟨runTick_phase _, runTick_action_ne_start _, hafter,
      hvisited.trans ⟨fun h => by bv_omega, fun h => by bv_omega⟩⟩

/-! ## The two procedures of the counter alone -/

/-- The tick counter's two procedures (R151, R152). -/
def countTick (u : State) : State :=
  if (enterChannel u).phase = .tick0 then enterChannel u else tickN (enterChannel u)

/-- From 0 the counter wraps and is reloaded from the tempo. -/
theorem countTick_of_zero (htick : (u.ch u.chan).tick = 0x00#8) (htempo : 2#8 ≤ (u.ch u.chan).tempo) :
    (countTick u).chan = u.chan ∧ (countTick u).phase = .tickN ∧
    (countTick u).ch u.chan = { u.ch u.chan with tick := (u.ch u.chan).tempo } := by
  obtain ⟨hch, ⟨⟨hchan, -⟩, -⟩, hphase⟩ := enterChannel_spec u
  have htickN : (enterChannel u).phase = .tickN := by rw [hphase, htick]; decide
  have hwrapped : 0x80#8 ≤ ((enterChannel u).ch (enterChannel u).chan).tick := by
    rw [hchan, hch, htick]; exact (by decide : 0x80#8 ≤ 0x00#8 - 1#8)
  obtain ⟨kch, ⟨⟨kchan, -⟩, -⟩, kphase⟩ := tickN_of_wrapped hwrapped
  rw [hchan, hch] at kch
  have hcount : countTick u = tickN (enterChannel u) := if_neg (by rw [htickN]; decide)
  rw [hcount]
  exact ⟨kchan.trans hchan, kphase.trans htickN, kch.trans (by simp only [htempo, if_true])⟩

/-- Otherwise it is decremented, and at 0 the channel is at tick 0. -/
theorem countTick_of_pos (htick : (u.ch u.chan).tick - 1#8 < 0x80#8) :
    (countTick u).chan = u.chan ∧
    (countTick u).phase = (if (u.ch u.chan).tick - 1#8 = 0x00#8 then .tick0 else .tickN) ∧
    (countTick u).ch u.chan = { u.ch u.chan with tick := (u.ch u.chan).tick - 1#8 } := by
  obtain ⟨hch, ⟨⟨hchan, -⟩, -⟩, hphase⟩ := enterChannel_spec u
  have hplain : tickN (enterChannel u) = enterChannel u := tickN_of_not_wrapped (by rw [hchan, hch]; bv_omega)
  have hcount : countTick u = enterChannel u := by rw [countTick, hplain, ite_self]
  rw [hcount]
  exact ⟨hchan, hphase, hch⟩

/-- The row period of the two procedures alone (R157). -/
theorem countTick_iterate (htick : (s.ch s.chan).tick = 0x00#8) (hlow : 2#8 ≤ (s.ch s.chan).tempo)
    (hhigh : (s.ch s.chan).tempo < 0x80#8) {n : Nat} (hn : n ≤ (s.ch s.chan).tempo.toNat) :
    let t := countTick^[n + 1] s
    t.chan = s.chan ∧ t.phase = (if n = (s.ch s.chan).tempo.toNat then .tick0 else .tickN) ∧
    (t.ch s.chan).tick = (s.ch s.chan).tempo - BitVec.ofNat 8 n := by
  have hfew : 2 ≤ (s.ch s.chan).tempo.toNat := hlow
  have hmany : (s.ch s.chan).tempo.toNat < 128 := hhigh
  induction n with
  | zero =>
    obtain ⟨hchan, hphase, hch⟩ := countTick_of_zero htick hlow
    exact ⟨hchan, hphase.trans (if_neg (by omega)).symm, (congrArg Channel.tick hch).trans (by simp)⟩
  | succ n ih =>
    obtain ⟨kchan, -, ktick⟩ := ih (by omega)
    have hold := toNat_countdown (tempo := (s.ch s.chan).tempo) (n := n) (by omega)
    have hnew := toNat_countdown hn
    have hcount : (s.ch s.chan).tempo - BitVec.ofNat 8 n - 1#8 = (s.ch s.chan).tempo - BitVec.ofNat 8 (n + 1) := by
      bv_omega
    rw [Function.iterate_succ_apply']
    have hcur : ((countTick^[n + 1] s).ch (countTick^[n + 1] s).chan).tick - 1#8 =
        (s.ch s.chan).tempo - BitVec.ofNat 8 (n + 1) := by rw [kchan, ktick, hcount]
    obtain ⟨hchan, hphase, hch⟩ := countTick_of_pos (u := countTick^[n + 1] s) (by rw [hcur]; bv_omega)
    rw [hcur] at hphase hch
    rw [kchan] at hchan hch
    exact ⟨hchan, hphase.trans (if_congr (by bv_omega) rfl rfl), by rw [hch]⟩

/-- Settles O22: the counter's procedures alone by `countTick_iterate`, whole ticks by `rowPeriod`. -/
theorem rowPeriodIsTempoPlusOne : Obligations.RowPeriodIsTempoPlusOne := by
  refine ⟨fun s n htick hlow hhigh hn => (countTick_iterate htick hlow hhigh hn).2.1,
    fun s c tempo n hidle hstart htick hlow hhigh hn hread => ?_⟩
  obtain ⟨kidle, -, ktick, kvisited⟩ := rowPeriod hidle hstart htick hlow hhigh hread hn
  exact ⟨_, if_pos kidle, ktick, kvisited⟩

end

end Sys2Proof.Machine
end

section
/-! SUPPORT. The sequencer: one run, and the order rows that run after run reads (R170, R171). -/

namespace Sys2Proof.Machine

/-! ## One run (R170) -/

/-- Settles O25: `sequencer_spec`, its shorthands being the statement's. -/
theorem sequencerRun : Obligations.SequencerRun := by
  intro c s wrap i p t
  obtain ⟨hch, hothers, hshared, hcontrol, hreg, hmem, hplace, hphase⟩ := sequencer_spec c s
  have hpattern : (if orderIllegal c s then 0x00#8 else p) = if 208#8 ≤ p then 0x00#8 else p :=
    if_congr decide_eq_true_iff rfl rfl
  rw [← hpattern]
  exact ⟨hch, hplace, hothers, hshared, hcontrol, sameImage_of_reg hreg,
    sameCells_of_mem hmem (sequencer_freqRom c s), hphase⟩

/-- A run from a cursor inside the song plays the row under it and moves on, or back to the wrap row. -/
theorem sequencer_inside {c : Chan} {s : State} (h : (s.ch c).songptr < s.songLen) :
    let i := (s.ch c).songptr
    ((sequencer c s).ch c).curOrder = i ∧
    ((sequencer c s).ch c).songptr = if i.toNat + 1 < s.songLen.toNat then i + 1#8 else orderWrap s := by
  have hindex : orderIndex c s = (s.ch c).songptr := if_neg (BitVec.not_le.mpr h)
  rw [(sequencer_spec c s).1, hindex]
  refine ⟨rfl, ?_⟩
  by_cases hlast : (s.ch c).songptr.toNat + 1 < s.songLen.toNat
  · rw [if_pos hlast]; exact if_neg (by bv_omega)
  · rw [if_neg hlast]; exact if_pos (by bv_omega)

theorem orderWrap_lt {s : State} (h : 0x00#8 < s.songLen) : orderWrap s < s.songLen := by
  unfold orderWrap
  split_ifs with hloop
  · exact hloop
  · exact h

/-! ## Run after run (R171) -/

/-- The row that run `n` reads: up to the end of the song, and then round and round the rows from `loop` on. -/
def playedRow (first len loop n : Nat) : Nat :=
  if first + n < len then first + n else loop + (first + n - len) % (len - loop)

theorem playedRow_lt {len loop : Nat} (hloop : loop < len) (first n : Nat) : playedRow first len loop n < len := by
  have hmod := Nat.mod_lt (first + n - len) (Nat.sub_pos_of_lt hloop)
  unfold playedRow
  split_ifs <;> omega

/-- The next row is the one after it, or after the last row of the song the loop row. -/
theorem playedRow_succ {len loop : Nat} (hloop : loop < len) (first n : Nat) :
    playedRow first len loop (n + 1) =
      if playedRow first len loop n + 1 < len then playedRow first len loop n + 1 else loop := by
  unfold playedRow
  by_cases hbefore : first + n < len
  · rw [if_pos hbefore]
    by_cases hnext : first + n + 1 < len
    · rw [if_pos hnext, if_pos (by omega)]; rfl
    · rw [if_neg hnext, if_neg (by omega), show first + (n + 1) - len = 0 by omega, Nat.zero_mod, Nat.add_zero]
  · rw [if_neg hbefore, if_neg (by omega), show first + (n + 1) - len = first + n - len + 1 by omega,
      ← Nat.mod_add_mod]
    have hmod := Nat.mod_lt (first + n - len) (Nat.sub_pos_of_lt hloop)
    by_cases hlast : (first + n - len) % (len - loop) + 1 < len - loop
    · rw [Nat.mod_eq_of_lt hlast, if_pos (by omega)]; omega
    · rw [show (first + n - len) % (len - loop) + 1 = len - loop by omega, Nat.mod_self, if_neg (by omega)]; rfl

theorem sequencer_iterate_mem (c : Chan) (s : State) (n : Nat) : ((sequencer c)^[n] s).mem = s.mem := by
  induction n with
  | zero => rfl
  | succ n ih => rw [Function.iterate_succ_apply', (sequencer_chan_mem c _).2, ih]

/-- Before run `n` the cursor stands at the row that run will read. -/
theorem sequencer_iterate_songptr {c : Chan} {s : State} (h : (s.ch c).songptr < s.songLen) (n : Nat) :
    (((sequencer c)^[n] s).ch c).songptr.toNat =
      playedRow (s.ch c).songptr.toNat s.songLen.toNat (orderWrap s).toNat n := by
  have hwrap : orderWrap s < s.songLen := orderWrap_lt (by bv_omega)
  induction n with
  | zero => exact (if_pos h).symm
  | succ n ih =>
    obtain ⟨hlen, -, -, hsame⟩ := orderList_congr (sequencer_iterate_mem c s n)
    have hinside := playedRow_lt hwrap (s.ch c).songptr.toNat n
    rw [← ih] at hinside
    rw [Function.iterate_succ_apply', (sequencer_inside (hlen ▸ hinside)).2, hlen, hsame, playedRow_succ hwrap, ← ih]
    split_ifs with hlast
    · bv_omega
    · rfl

/-- Settles O26: a run from inside the song reads the row its cursor stands at, which `sequencer_iterate_songptr`
names. -/
theorem sequencerLoops : Obligations.SequencerLoops := by
  intro c s n h wrap first len loop t
  obtain ⟨hlen, -, -, hwrap⟩ := orderList_congr (sequencer_iterate_mem c s n)
  have hloop : orderWrap s < s.songLen := orderWrap_lt (by bv_omega)
  have hrow := sequencer_iterate_songptr h n
  have hnext := sequencer_iterate_songptr h (n + 1)
  have hrowInside : (((sequencer c)^[n] s).ch c).songptr < s.songLen :=
    BitVec.lt_def.mpr (hrow ▸ playedRow_lt hloop _ n)
  have hrun : t = sequencer c ((sequencer c)^[n] s) := Function.iterate_succ_apply' ..
  obtain ⟨hread, hmoved⟩ := sequencer_inside (hlen ▸ hrowInside)
  rw [← hrun] at hread hmoved
  refine ⟨hread ▸ hrow, hread ▸ hrowInside, BitVec.lt_def.mpr (hnext ▸ playedRow_lt hloop _ _), fun hlast => ?_⟩
  rw [hread] at hlast
  rw [hmoved, hlen, hwrap, if_neg (by omega)]
  rfl

end Sys2Proof.Machine
end

section
/-! SUPPORT. The row fetch, with the note byte of the row run as its class says (R102, R180). -/

namespace Sys2Proof.Machine

/-! ## The note byte (R102) -/

/-- The note byte is a note: none of the distinguished codes, and inside the range of 96. -/
abbrev IsNoteByte (n : Byte) : Prop := ¬ (n = 0xC0#8 ∨ n = 0xC1#8 ∨ n = 0xC2#8) ∧ 0x60#8 ≤ n ∧ n ≤ 0xBF#8

/-- The note byte `n` makes the channel release its gate early, with the gate-timer byte `g` (R106). -/
abbrev Channel.LeadsIn (g : Byte) (x : Channel) : Prop := x.newcommand ≠ 3#4 ∧ g &&& 0x40#8 = 0x00#8

/-- A channel after the note byte `n`, with the gate-timer byte `g` of its instrument (R180). -/
def Channel.noteRun (g n : Byte) (x : Channel) : Channel :=
  if n = 0xC1#8 then { x with gate := 0xFE#8 }
  else if n = 0xC2#8 then { x with gate := 0xFF#8 }
  else if IsNoteByte n then
    { x with newnote := n + x.trans, nnPend := true, gate := if x.LeadsIn g then 0xFE#8 else x.gate }
  else x

section
variable {n : Byte} (g : Byte) (x : Channel)

theorem noteRun_of_note (h : IsNoteByte n) :
    x.noteRun g n =
      { x with newnote := n + x.trans, nnPend := true, gate := if x.LeadsIn g then 0xFE#8 else x.gate } :=
  (if_neg fun hoff => h.1 (.inr (.inl hoff))).trans ((if_neg fun hon => h.1 (.inr (.inr hon))).trans (if_pos h))

theorem noteRun_of_none (hoff : n ≠ 0xC1#8) (hon : n ≠ 0xC2#8) (h : ¬ IsNoteByte n) : x.noteRun g n = x :=
  (if_neg hoff).trans ((if_neg hon).trans (if_neg h))

end

theorem inNoteRange_iff (n : Byte) : inNoteRange n = true ↔ 0x60#8 ≤ n ∧ n ≤ 0xBF#8 := by
  have hbase : Config.noteBase.toNat = 96 := rfl
  unfold inNoteRange Config.nNotes
  rw [Bool.and_eq_true, decide_eq_true_iff, decide_eq_true_iff, hbase]
  bv_omega

/-- The class of a note byte (R102). -/
theorem decodeNote_cases (n : Byte) :
    (n = 0xC0#8 ∧ decodeNote n = .nRest) ∨ (n = 0xC1#8 ∧ decodeNote n = .nKoff) ∨
    (n = 0xC2#8 ∧ decodeNote n = .nKon) ∨ (IsNoteByte n ∧ decodeNote n = .nNote n) ∨
    (n ≠ 0xC1#8 ∧ n ≠ 0xC2#8 ∧ ¬ IsNoteByte n ∧ decodeNote n = .nNone n) := by
  by_cases hrest : n = 0xC0#8
  · exact .inl ⟨hrest, if_pos hrest⟩
  by_cases hoff : n = 0xC1#8
  · exact .inr (.inl ⟨hoff, by rw [hoff]; rfl⟩)
  by_cases hon : n = 0xC2#8
  · exact .inr (.inr (.inl ⟨hon, by rw [hon]; rfl⟩))
  have hsentinel : isNoteSentinel n = false := by
    delta isNoteSentinel
    simp only [Bool.or_eq_false_iff, beq_eq_false_iff_ne]
    exact ⟨⟨hrest, hoff⟩, hon⟩
  rw [decodeNote_of_not_sentinel hsentinel]
  by_cases hrange : 0x60#8 ≤ n ∧ n ≤ 0xBF#8
  · exact .inr (.inr (.inr (.inl ⟨⟨by simp [hrest, hoff, hon], hrange⟩, if_pos ((inNoteRange_iff n).mpr hrange)⟩)))
  · exact .inr (.inr (.inr (.inr ⟨hoff, hon, fun h => hrange h.2, if_neg (mt (inNoteRange_iff n).mp hrange)⟩)))

theorem perform_nKoff_regAt (s : State) (a : Fin 25) : (perform .nKoff s).regAt a = s.regAt a :=
  modCur_regAt s (fun x => { x with gate := 0xFE#8 }) a

theorem perform_nKon_regAt (s : State) (a : Fin 25) : (perform .nKon s).regAt a = s.regAt a :=
  modCur_regAt s (fun x => { x with gate := 0xFF#8 }) a

/-- What a note byte writes (R180). -/
theorem perform_note_spec (n : Byte) (s : State) :
    let x := s.ch s.chan
    let g := s.instrByte x.instr .gatetimer
    let hardRestart := IsNoteByte n ∧ x.LeadsIn g ∧ g &&& 0x80#8 = 0x00#8
    let t := perform (decodeNote n) s
    t.ch s.chan = x.noteRun g n ∧
    t.regAt (regIdx s.chan 5) = (if hardRestart then 0x0F#8 else s.regAt (regIdx s.chan 5)) ∧
    t.regAt (regIdx s.chan 6) = (if hardRestart then 0x00#8 else s.regAt (regIdx s.chan 6)) := by
  intro x g hardRestart t
  rcases decodeNote_cases n with ⟨rfl, hd⟩ | ⟨rfl, hd⟩ | ⟨rfl, hd⟩ | ⟨hnote, hd⟩ | ⟨hoff, hon, hnote, hd⟩
  case inl => exact ⟨rfl, rfl, rfl⟩
  case inr.inl =>
    have hhard : ¬ hardRestart := fun h => h.1.1 (.inr (.inl rfl))
    rw [if_neg hhard, if_neg hhard]
    exact ⟨modCur_ch_self s fun x => { x with gate := 0xFE#8 }, perform_nKoff_regAt s _, perform_nKoff_regAt s _⟩
  case inr.inr.inl =>
    have hhard : ¬ hardRestart := fun h => h.1.1 (.inr (.inr rfl))
    rw [if_neg hhard, if_neg hhard]
    exact ⟨modCur_ch_self s fun x => { x with gate := 0xFF#8 }, perform_nKon_regAt s _, perform_nKon_regAt s _⟩
  case inr.inr.inr.inl =>
    obtain ⟨u, he, hch, had, hsr, -⟩ := exec_nNote_spec n s
    have htu : t = u := by
      cases he
      exact congrArg (perform · s) hd
    have hhard : hardRestart ↔ x.LeadsIn g ∧ g &&& 0x80#8 = 0x00#8 := and_iff_right hnote
    rw [htu, noteRun_of_note g x hnote]
    exact ⟨hch, had.trans (if_congr hhard.symm rfl rfl), hsr.trans (if_congr hhard.symm rfl rfl)⟩
  case inr.inr.inr.inr =>
    have hts : t = s := congrArg (perform · s) hd
    have hhard : ¬ hardRestart := fun h => hnote h.1
    rw [hts, noteRun_of_none g x hoff hon hnote, if_neg hhard, if_neg hhard]
    exact ⟨rfl, rfl, rfl⟩

/-! ## The fetch (R180) -/

theorem rowAbsent_iff (r len : Byte) : rowAbsent r len = true ↔ r = 0xFF#8 ∨ 128#8 ≤ r ∨ len ≤ r := by
  unfold rowAbsent
  rw [Bool.or_eq_true, Bool.or_eq_true, beq_iff_eq, decide_eq_true_iff, decide_eq_true_iff, or_assoc]
  rfl

section
variable {s : State}

theorem microStep_of_absentRow (h : s.phase = .getNewNotes)
    (habsent : rowAbsent (s.ch s.chan).pattrow (s.pattLen (s.ch s.chan).pattnum) = true) :
    microStep s = (s.modCur fun x => { x with pattrow := Config.pattEnd }).goto .nextChannel :=
  (microStep_getNewNotes h).trans (congrArg (State.goto · .nextChannel) (if_pos habsent))

theorem microStep_of_presentRow (h : s.phase = .getNewNotes)
    (hpresent : ¬ rowAbsent (s.ch s.chan).pattrow (s.pattLen (s.ch s.chan).pattnum) = true) :
    let x := s.ch s.chan
    microStep s = (perform (decodeNote (s.pattByte x.pattnum x.pattrow .note)) (latchRow s)).goto .nextChannel :=
  (microStep_getNewNotes h).trans (congrArg (State.goto · .nextChannel) (if_neg hpresent))

end

/-- Settles O17: with no row the cursor is put at the end marker; else the row is latched and its note byte run. -/
theorem rowFetch : Obligations.RowFetch := by
  intro s hp hr x p r i n u g isNote gateOff hardRestart
  have hstep : step s = .next (microStep s) := step_inside_tick hr (by simp [hp])
  refine ⟨_, hstep, ?_⟩
  by_cases habsent : r = 0xFF#8 ∨ 128#8 ≤ r ∨ s.pattLen p ≤ r
  · obtain ⟨⟨hplace, hothers, hshared, hcontrol, himage, hcells⟩, -⟩ :=
      modCur_onlyChannel (fun x => { x with pattrow := Config.pattEnd }) s
    rw [microStep_of_absentRow hp ((rowAbsent_iff ..).mpr habsent), if_pos habsent]
    exact ⟨rfl, hplace, fun d hd => (goto_ch ..).trans (hothers d hd), hshared, hcontrol, hcells,
      fun a _ => himage a List.not_mem_nil, (goto_ch ..).trans (modCur_ch_self ..), himage⟩
  · obtain ⟨⟨-, hplace, hothers, hshared, hcontrol, himage, hcells⟩, -⟩ := fetchedRow_frame n s
    obtain ⟨hch, had, hsr⟩ := perform_note_spec n (latchRow s)
    have hu : (latchRow s).ch s.chan = u := modCur_ch_self ..
    have hg : (latchRow s).instrByte u.instr .gatetimer = g := congrArg (Memory.read · _) (modCur_mem ..)
    have hreg : ∀ a, (latchRow s).regAt a = s.regAt a := fun a => modCur_regAt ..
    rw [latchRow_chan, hu, hg] at hch had hsr
    rw [hreg] at had hsr
    rw [microStep_of_presentRow hp (mt (rowAbsent_iff ..).mp habsent), if_neg habsent]
    exact ⟨rfl, hplace, fun d hd => (goto_ch ..).trans (hothers d hd), hshared, hcontrol, hcells, himage,
      (goto_ch ..).trans hch, had, hsr⟩

end Sys2Proof.Machine
end

section
/-! SUPPORT. The note start and the end of tick 0 (R107, R177, R178). -/

namespace Sys2Proof.Machine

/-! ## The end of tick 0 (R178) -/

/-- The end of tick 0 takes the pending note off and changes nothing else. -/
theorem tick0End_spec (u : State) :
    (tick0End u).ch u.chan = { u.ch u.chan with nnPend := false } ∧ OnlyChannel u (tick0End u) := by
  unfold tick0End
  by_cases hpend : u.cur.nnPend = true
  · rw [if_pos hpend]
    exact ⟨(goto_ch ..).trans (modCur_ch_self ..), (modCur_onlyChannel ..).1.trans (goto_onlyChannel ..)⟩
  · have hnone : (u.ch u.chan).nnPend = false := Bool.eq_false_iff.mpr hpend
    have hsame : { u.ch u.chan with nnPend := false } = u.ch u.chan := by rw [← hnone]
    rw [if_neg hpend, hsame]
    exact ⟨goto_ch .., goto_onlyChannel ..⟩

/-- Settles O24: the command leaves the channel being stepped the same, so the end of tick 0 is that channel's. -/
theorem consumedNoteEndsTheTick : Obligations.ConsumedNoteEndsTheTick := by
  intro s hp hr
  have hstep : step s = .next (microStep s) := step_inside_tick hr (by simp [hp])
  let i := decodeCmd ((s.ch s.chan).newcommand.setWidth 8) (s.ch s.chan).newcmddata
  have hd : decode .cmd [(s.ch s.chan).newcommand.setWidth 8, (s.ch s.chan).newcmddata] = .ok i := rfl
  obtain ⟨hchan, -⟩ := performed_sounds hd rfl s
  obtain ⟨hch, honly⟩ := tick0End_spec (perform i s)
  have hrun : microStep s = tick0End (perform i s) := microStep_dispatch hp
  rw [hchan, ← hrun] at hch
  rw [← hrun] at honly
  exact ⟨i, _, _, hd, exec_eq_perform i .cmd (decode_format hd) s, hstep, hch, honly, microStep_phase hp⟩

/-! ## The first waveform (R107) -/

/-- A channel after the first-waveform byte `fw`. -/
def Channel.firstWaved (fw : Byte) (x : Channel) : Channel :=
  { x with wave := if fw = 0x00#8 ∨ 0xFE#8 ≤ fw then x.wave else fw, gate := gateAfter fw x.gate }

theorem modCur_spec (f : Channel → Channel) (s : State) :
    (s.modCur f).ch s.chan = f (s.ch s.chan) ∧ OnlyChannel s (s.modCur f) :=
  ⟨modCur_ch_self s f, (modCur_onlyChannel f s).1⟩

/-- A first-waveform byte changes the channel being stepped and nothing else. -/
theorem perform_firstwave_spec (fw : Byte) (s : State) :
    (perform (decodeFirstwave fw) s).ch s.chan = (s.ch s.chan).firstWaved fw ∧
    OnlyChannel s (perform (decodeFirstwave fw) s) := by
  by_cases hkeep : fw = 0x00#8
  · subst hkeep
    exact ⟨rfl, .refl s⟩
  by_cases hoff : fw = 0xFE#8
  · subst hoff
    exact modCur_spec (fun x => { x with gate := 0xFE#8 }) s
  by_cases hon : fw = 0xFF#8
  · subst hon
    exact modCur_spec (fun x => { x with gate := 0xFF#8 }) s
  have hrange : 0x01#8 ≤ fw ∧ fw ≤ 0xFD#8 := by constructor <;> bv_omega
  have hwave : ¬ (fw = 0x00#8 ∨ 0xFE#8 ≤ fw) := by bv_omega
  rw [decodeFirstwave_fwWave ((wf_fwWave_iff fw).mpr hrange), Channel.firstWaved, gateAfter, if_neg hwave, if_neg hkeep,
    if_neg hoff]
  exact modCur_spec (fun x => { x with wave := fw, gate := 0xFF#8 }) s

/-! ## The cursor loads (R177) -/

section
variable {s t : State}

theorem SameCells.instrByte_eq (h : SameCells s t) : t.instrByte = s.instrByte :=
  funext fun _ => funext fun _ => h.1 _

theorem SameCells.left_eq (h : SameCells s t) : t.left = s.left :=
  funext fun _ => funext fun _ => h.1 _

theorem ControlAfter.fatal_eq {p : Prop} [Decidable p] {k : Cause} (h : ControlAfter (decide p) k s t) :
    t.fatal = s.fatal ||| if p then causeBit k else 0#7 := by
  obtain ⟨-, -, hfatal, -⟩ := h
  by_cases hp : p <;> simpa [hp] using hfatal

/-- The control registers after three raises in a row, each under its own condition (R331). -/
theorem ControlAfter.three_raises {u v : State} {k₁ k₂ k₃ : Cause} {p q r : Prop} [Decidable p] [Decidable q]
    [Decidable r] (h₁ : ControlAfter (decide p) k₁ s t) (h₂ : ControlAfter (decide q) k₂ t u)
    (h₃ : ControlAfter (decide r) k₃ u v) :
    v.playing = s.playing ∧ v.loopPattern = s.loopPattern ∧
    v.fatal = s.fatal ||| (if p then causeBit k₁ else 0#7) ||| (if q then causeBit k₂ else 0#7) |||
      (if r then causeBit k₃ else 0#7) ∧
    v.action = (if p ∨ q ∨ r then 3#2 else s.action) := by
  have hfatal := h₃.fatal_eq
  rw [h₂.fatal_eq, h₁.fatal_eq] at hfatal
  obtain ⟨hplaying₁, hloop₁, -, haction₁⟩ := h₁
  obtain ⟨hplaying₂, hloop₂, -, haction₂⟩ := h₂
  obtain ⟨hplaying₃, hloop₃, -, haction₃⟩ := h₃
  refine ⟨hplaying₃.trans (hplaying₂.trans hplaying₁), hloop₃.trans (hloop₂.trans hloop₁), hfatal, ?_⟩
  rw [haction₃, haction₂, haction₁]
  by_cases hp : p <;> by_cases hq : q <;> simp [hp, hq]

theorem ControlAfter.refl (k : Cause) (s : State) : ControlAfter false k s s := ⟨rfl, rfl, rfl, rfl⟩

end

/-- A state with the filter cursor loaded, unless the pointer is 0. -/
def State.filterLoaded (p : Byte) (s : State) : State :=
  { s with filtPtr := if p = 0x00#8 then s.filtPtr else p, filtTime := if p = 0x00#8 then s.filtTime else 0x00#8 }

theorem SameShared.filterLoaded {s t : State} (h : SameShared s t) (p : Byte) :
    SameShared (s.filterLoaded p) (t.filterLoaded p) := by
  obtain ⟨hptr, htime, hrest⟩ := h
  exact ⟨congrArg (fun v => if p = 0x00#8 then v else p) hptr,
    congrArg (fun v => if p = 0x00#8 then v else 0x00#8) htime, hrest⟩

/-- How a note start loads the pulse cursor of channel `c` (R177). -/
def loadPulseUnlessZero (c : Chan) (p : Byte) (s : State) : State := if p = 0x00#8 then s else loadPulsePtr c p s

/-- How a note start loads the filter cursor (R177). -/
def loadFilterUnlessZero (p : Byte) (s : State) : State := if p = 0x00#8 then s else loadFilterPtr p s

/-- A note start has loaded the pulse cursor of channel `c`: nothing is written for pointer 0, and the cause is raised
where the pointer names a jump. -/
def PulseStarted (c : Chan) (p : Byte) (s t : State) : Prop :=
  t.ch c =
    { s.ch c with
      pulsePtr := if p = 0x00#8 then (s.ch c).pulsePtr else p
      pulsetime := if p = 0x00#8 then (s.ch c).pulsetime else 0x00#8 } ∧
  ControlAfter (decide (p ≠ 0x00#8 ∧ s.left .pulse p = 0xFF#8)) .jumpIntoJumpPulse s t ∧
  SamePlace s t ∧ SameOthers c s t ∧ SameShared s t ∧ SameImageBut [] s t ∧ SameCells s t

theorem loadPulseUnlessZero_spec (c : Chan) (p : Byte) (s : State) :
    PulseStarted c p s (loadPulseUnlessZero c p s) := by
  unfold PulseStarted
  by_cases hzero : p = 0x00#8
  · have ht : loadPulseUnlessZero c p s = s := if_pos hzero
    have hquiet : decide (p ≠ 0x00#8 ∧ s.left .pulse p = 0xFF#8) = false := decide_eq_false fun h => h.1 hzero
    obtain ⟨-, hplace, hothers, hshared, -, himage, hcells⟩ := OnlyChannelOf.refl c [] s
    rw [ht, hquiet, if_pos hzero, if_pos hzero]
    exact ⟨rfl, .refl .., hplace, hothers, hshared, himage, hcells⟩
  · have ht : loadPulseUnlessZero c p s = loadPulsePtr c p s := if_neg hzero
    obtain ⟨hch, hothers, hshared, hcontrol, hreg, hmem, hplace, -⟩ := loadPulsePtr_spec c p s
    rw [loadsJump_eq] at hcontrol
    rw [ht, if_neg hzero, if_neg hzero]
    exact ⟨hch, hcontrol, hplace, hothers, hshared, sameImage_of_reg hreg,
      sameCells_of_mem hmem (loadPulsePtr_freqRom ..)⟩

/-- A note start has loaded the filter cursor, as `PulseStarted` says of the pulse cursor. -/
def FilterStarted (p : Byte) (s t : State) : Prop :=
  SameShared (s.filterLoaded p) t ∧
  ControlAfter (decide (p ≠ 0x00#8 ∧ s.left .filter p = 0xFF#8)) .jumpIntoJumpFilter s t ∧
  SamePlace s t ∧ SameChannels s t ∧ SameImageBut [] s t ∧ SameCells s t

theorem loadFilterUnlessZero_spec (p : Byte) (s : State) : FilterStarted p s (loadFilterUnlessZero p s) := by
  unfold FilterStarted
  by_cases hzero : p = 0x00#8
  · have ht : loadFilterUnlessZero p s = s := if_pos hzero
    have hquiet : decide (p ≠ 0x00#8 ∧ s.left .filter p = 0xFF#8) = false := decide_eq_false fun h => h.1 hzero
    rw [ht, hquiet, State.filterLoaded, if_pos hzero, if_pos hzero]
    exact ⟨.refl s, .refl .., ⟨rfl, rfl⟩, fun _ => rfl, fun _ _ => rfl, fun _ => rfl, rfl⟩
  · have ht : loadFilterUnlessZero p s = loadFilterPtr p s := if_neg hzero
    obtain ⟨⟨hptr, htime, htype, hcutoff, hctrl, hfader, hfunk0, hfunk1, hcontrol, hplace, himage, hcells⟩, hchannels,
      -⟩ := loadFilterPtr_loaded p s
    rw [ht, State.filterLoaded, if_neg hzero, if_neg hzero]
    exact ⟨⟨hptr, htime, htype, hcutoff, hctrl, hfader, hfunk0, hfunk1⟩, hcontrol, hplace, hchannels, himage, hcells⟩

/-- The loads of a note start, one after another (R177). -/
theorem noteLoads_eq (s : State) :
    let i := (s.ch s.chan).instr
    noteLoads s =
      setEnvelope s.chan (s.instrByte i .ad) (s.instrByte i .sr)
        (loadFilterUnlessZero (s.instrByte i .ptrFilter)
          (loadPulseUnlessZero s.chan (s.instrByte i .ptrPulse)
            (loadWavePtr s.chan (s.instrByte i .ptrWave) s))) := rfl

/-- What the cursor loads and the envelope of a note start write (R177). -/
theorem noteLoads_spec (s : State) :
    let x := s.ch s.chan
    let pw := s.instrByte x.instr .ptrWave
    let pp := s.instrByte x.instr .ptrPulse
    let pf := s.instrByte x.instr .ptrFilter
    let badW := pw ≠ 0x00#8 ∧ s.left .wave pw = 0xFF#8
    let badP := pp ≠ 0x00#8 ∧ s.left .pulse pp = 0xFF#8
    let badF := pf ≠ 0x00#8 ∧ s.left .filter pf = 0xFF#8
    let t := noteLoads s
    SamePlace s t ∧ SameOthers s.chan s t ∧ SameCells s t ∧
    t.ch s.chan =
      { x with
        wavePtr := pw, wavetime := 0x00#8
        pulsePtr := if pp = 0x00#8 then x.pulsePtr else pp
        pulsetime := if pp = 0x00#8 then x.pulsetime else 0x00#8 } ∧
    SameShared (s.filterLoaded pf) t ∧
    t.playing = s.playing ∧ t.loopPattern = s.loopPattern ∧
    t.fatal = s.fatal ||| (if badW then 0x04#7 else 0#7) ||| (if badP then 0x08#7 else 0#7) |||
      (if badF then 0x10#7 else 0#7) ∧
    t.action = (if badW ∨ badP ∨ badF then 3#2 else s.action) ∧
    t.regAt (regIdx s.chan 5) = s.instrByte x.instr .ad ∧ t.regAt (regIdx s.chan 6) = s.instrByte x.instr .sr ∧
    SameImageBut [regIdx s.chan 5, regIdx s.chan 6] s t := by
  intro x pw pp pf badW badP badF t
  let s1 := loadWavePtr s.chan pw s
  let s2 := loadPulseUnlessZero s.chan pp s1
  let s3 := loadFilterUnlessZero pf s2
  have ht : t = setEnvelope s.chan (s.instrByte x.instr .ad) (s.instrByte x.instr .sr) s3 := noteLoads_eq s
  have hwave : s1.ch s.chan = { x with wavePtr := pw, wavetime := 0x00#8 } ∧
      OnlyChannelOrRaise (decide badW) .jumpIntoJumpWave s s1 ∧ s1.phase = s.phase := loadWavePtr_cur pw s
  have hpulse : PulseStarted s.chan pp s1 s2 := loadPulseUnlessZero_spec s.chan pp s1
  have hfilter : FilterStarted pf s2 s3 := loadFilterUnlessZero_spec pf s2
  clear_value t s3 s2 s1
  subst ht
  obtain ⟨hch1, ⟨hplace1, hothers1, hshared1, hcontrol1, himage1, hcells1⟩, -⟩ := hwave
  obtain ⟨hch2, hcontrol2, hplace2, hothers2, hshared2, himage2, hcells2⟩ := hpulse
  obtain ⟨hshared3, hcontrol3, hplace3, hchannels3, himage3, hcells3⟩ := hfilter
  obtain ⟨had, hsr, himage4, -⟩ :=
    setEnvelope_spec s.chan (s.instrByte x.instr .ad) (s.instrByte x.instr .sr) s3
  have hcells12 := hcells1.trans hcells2
  rw [hcells1.left_eq] at hcontrol2
  rw [hcells12.left_eq] at hcontrol3
  obtain ⟨hplaying, hloop, hfatal, haction⟩ := hcontrol1.three_raises hcontrol2 hcontrol3
  have himage : SameImageBut [] s s3 := himage1.trans (himage2.trans himage3)
  have hothers : SameOthers s.chan s s3 := (hothers1.trans hothers2).trans fun d _ => hchannels3 d
  refine ⟨hplace1.trans (hplace2.trans hplace3), fun d hd => (setEnvelope_ch ..).trans (hothers d hd),
    hcells12.trans hcells3, ?_, ((hshared1.trans hshared2).filterLoaded pf).trans hshared3, hplaying, hloop, hfatal,
    haction, had, hsr, fun a ha => (himage4 a ha).trans (himage a List.not_mem_nil)⟩
  rw [setEnvelope_ch, hchannels3, hch2, hch1]

/-- Settles O19: the first waveform, and then the loads of `noteLoads_spec` from the state it leaves. -/
theorem noteStart : Obligations.NoteStart := by
  intro s hp hr x fw pw pp pf badW badP badF
  have hstep : step s = .next (microStep s) := step_inside_tick hr (by simp [hp])
  let u := perform (decodeFirstwave fw) s
  have hrun : microStep s = (noteLoads u).goto .dispatch := microStep_noteStart hp
  have hfirst : u.ch s.chan = x.firstWaved fw ∧ OnlyChannel s u := perform_firstwave_spec fw s
  clear_value u
  obtain ⟨huch, huplace, huothers, hushared, ⟨huplaying, huaction, hufatal, huloop⟩, huimage, hucells⟩ := hfirst
  obtain ⟨hplace, hothers, hcells, hch, hshared, hplaying, hloop, hfatal, haction, had, hsr, himage⟩ := noteLoads_spec u
  have hinstr : (x.firstWaved fw).instr = x.instr := rfl
  rw [huplace.1] at hothers had hsr himage
  simp only [huplace.1, huch, hinstr, hucells.instrByte_eq, hucells.left_eq] at hch hshared hfatal haction had hsr
  rw [hufatal] at hfatal
  rw [huaction] at haction
  obtain ⟨hfiltPtr, hfiltTime, hfiltType, hcutoff, hctrl, hfader, hfunk0, hfunk1⟩ :=
    (hushared.filterLoaded pf).trans hshared
  have himages : ∀ a, a ∉ [regIdx s.chan 5, regIdx s.chan 6] → (noteLoads u).regAt a = s.regAt a :=
    fun a ha => (himage a ha).trans (huimage a List.not_mem_nil)
  rw [hrun] at hstep
  exact ⟨_, hstep, rfl, huplace.trans hplace, fun d hd => (goto_ch ..).trans ((huothers.trans hothers) d hd),
    hucells.trans hcells, (goto_ch ..).trans hch, hfiltPtr, hfiltTime, hfiltType, hcutoff, hctrl, hfader, hfunk0,
    hfunk1, hplaying.trans huplaying, hloop.trans huloop, hfatal, haction, had, hsr, himages⟩

end Sys2Proof.Machine
end

section
/-! SUPPORT. The pattern commands that latch, and those that set tempos (R200 to R204, R214, R215). -/

namespace Sys2Proof.Machine

/-! ## The commands that latch (R200 to R204) -/

/-- Settles O27: each of the five updates the channel being stepped and nothing else. -/
theorem latchingCommands : Obligations.LatchingCommands := by
  intro s d x
  refine ⟨⟨_, rfl, ?_⟩, ⟨_, rfl, ?_⟩, ⟨_, rfl, ?_⟩, ⟨_, rfl, ?_⟩, ⟨_, rfl, ?_⟩⟩
  all_goals exact ⟨modCur_ch_self .., modCur_onlyChannel ..⟩

/-! ## Frames of the tempo updates -/

/-- An update of the channel being stepped changes channels only. -/
theorem modCur_onlyChannels (f : Channel → Channel) (s : State) : OnlyChannels s (s.modCur f) := by
  obtain ⟨⟨hplace, -, hshared, hcontrol, himage, hcells⟩, hphase⟩ := modCur_onlyChannel f s
  exact ⟨hphase, hplace, hshared, hcontrol, himage, hcells⟩

/-- Setting all tempos changes channels only. -/
theorem setAllTempos_onlyChannels (v : Byte) (s : State) : OnlyChannels s (setAllTempos v s) := by
  obtain ⟨hshared, hcontrol, hreg, hmem, hplace, hphase⟩ := setAllTempos_frame v s
  exact ⟨hphase, hplace, hshared, hcontrol, sameImage_of_reg hreg, sameCells_of_mem hmem (setAllTempos_freqRom v s)⟩

/-! ## Set-funk-tempo (R214) -/

/-- A state with the funk table loaded from speed entry `d`, unless `d` is 0. -/
def State.funkLoaded (d : Byte) (s : State) : State :=
  { s with
    funk0 := if d = 0x00#8 then s.funk0 else s.left .speed d
    funk1 := if d = 0x00#8 then s.funk1 else s.right .speed d }

theorem funkLoaded_onlyShared (d : Byte) (s : State) :
    OnlyShared s (s.funkLoaded d) ∧ (s.funkLoaded d).phase = s.phase :=
  ⟨⟨⟨rfl, rfl⟩, fun c => by cases c <;> rfl, ⟨rfl, rfl, rfl, rfl⟩, fun _ _ => rfl, fun _ => rfl, rfl⟩, rfl⟩

theorem exec_fnk (d : Byte) (s : State) : exec (.fnk d) s = .next (setAllTempos 0x00#8 (s.funkLoaded d)) := by
  have hload : (if d = 0x00#8 then s else { s with funk0 := s.left .speed d, funk1 := s.right .speed d }) =
      s.funkLoaded d := by
    unfold State.funkLoaded
    split_ifs <;> rfl
  exact congrArg (fun u => Host.Outcome.next (setAllTempos 0x00#8 u)) hload

/-! ## Set-tempo (R215) -/

/-- The tempo an operand names is its low seven bits. -/
theorem tempoValue_eq (d : Byte) : tempoValue d = BitVec.ofNat 8 (d.toNat % 128) :=
  (ofNat_of_toNat (Nat.and_two_pow_sub_one_eq_mod d.toNat 7).symm).symm

/-- Set-tempo writes the tempo of the issuing channel, and of all where bit 7 of the operand is clear. -/
theorem exec_tmp_spec (d : Byte) (s : State) :
    ∃ t, exec (.tmp d) s = .next t ∧ OnlyChannels s t ∧
      ∀ c, t.ch c = { s.ch c with
        tempo := if c = s.chan ∨ d.toNat < 128 then tempoValue d else (s.ch c).tempo } := by
  refine ⟨_, rfl, ?_⟩
  by_cases hone : 0x80#8 ≤ d
  · have hset : ¬ d.toNat < 128 := Nat.not_lt.mpr hone
    rw [if_pos hone]
    refine ⟨modCur_onlyChannels .., fun c => ?_⟩
    by_cases hc : c = s.chan
    · subst hc
      rw [if_pos (.inl rfl), modCur_ch_self]
    · rw [if_neg (not_or.mpr ⟨hc, hset⟩), modCur_ch_ne _ _ _ hc]
  · have hclear : d.toNat < 128 := Nat.not_le.mp hone
    rw [if_neg hone]
    refine ⟨setAllTempos_onlyChannels .., fun c => ?_⟩
    rw [if_pos (.inr hclear), setAllTempos_ch]

/-- Settles O31: set-funk-tempo loads the funk table and then sets all tempos; set-tempo is `exec_tmp_spec`. -/
theorem tempoCommands : Obligations.TempoCommands := by
  intro s d
  refine ⟨⟨_, exec_fnk d s, ?_⟩, ?_⟩
  · obtain ⟨⟨hplace, hchannels, hcontrol, himage, hcells⟩, hphase⟩ := funkLoaded_onlyShared d s
    obtain ⟨kphase, kplace, ⟨kptr, ktime, ktype, kcutoff, kctrl, kfader, kfunk0, kfunk1⟩, kcontrol, kimage, kcells⟩ :=
      setAllTempos_onlyChannels 0x00#8 (s.funkLoaded d)
    exact ⟨fun c => by rw [setAllTempos_ch, hchannels], kfunk0, kfunk1, kptr, ktime, ktype, kcutoff, kctrl, kfader,
      hcontrol.trans kcontrol, hplace.trans kplace, himage.trans kimage, hcells.trans kcells, kphase.trans hphase⟩
  · obtain ⟨t, he, ⟨hphase, hplace, hshared, hcontrol, himage, hcells⟩, hch⟩ := exec_tmp_spec d s
    rw [tempoValue_eq] at hch
    exact ⟨t, he, hch, hshared, hcontrol, hplace, himage, hcells, hphase⟩

end Sys2Proof.Machine
end

section
/-! SUPPORT. The entries of the wave table that are passed, and the note adjustment that passing them makes (R232 to
R236, R238). -/

namespace Sys2Proof.Machine

/-! ## Note adjustment (R238) -/

/-- A relative note is the sum with the channel's note within 7 bits. -/
theorem relativeNote_eq (o : BitVec 7) (note : Byte) :
    relativeNote o note = BitVec.ofNat 7 (o.toNat + note.toNat) := by
  delta relativeNote
  bv_omega

/-- The 8-bit index of a note given as a number. -/
theorem noteIndex_ofNat (n : Nat) : (BitVec.ofNat 7 n).setWidth 8 = BitVec.ofNat 8 (n % 128) := by
  apply BitVec.eq_of_toNat_eq
  simp

/-- A right byte below 0x80 adds itself to the channel's note. -/
theorem relativeNote_of_lt {r : Byte} (h : r < 0x80#8) (note : Byte) :
    relativeNote (r.setWidth 7) note = (r + note).setWidth 7 := by
  have hbyte : (r.setWidth 7).setWidth 8 = r := by bv_omega
  delta relativeNote
  rw [hbyte]

/-- Applying a note writes the channel being stepped and nothing else, and skips the effects. -/
theorem applyNote_spec (n : BitVec 7) (s : State) :
    (applyNote n s).ch s.chan =
      { s.ch s.chan with freq := freqAt s.freqRom (n.setWidth 8), vibtime := 0x00#8, lastnote := n } ∧
    OnlyChannel s (applyNote n s) ∧ (applyNote n s).phase = .pulseExec :=
  ⟨applyNote_ch n s, (modCur_onlyChannel ..).1.trans (goto_onlyChannel ..), rfl⟩

section
variable (rom : Vector Word 96) {r : Byte} (x : Channel)

theorem adjusted_of_keep : x.adjusted rom 0x80#8 = x := rfl

theorem adjusted_of_lt (h : r < 0x80#8) :
    x.adjusted rom r =
      { x with freq := freqAt rom (((r + x.note).setWidth 7).setWidth 8), vibtime := 0x00#8,
               lastnote := (r + x.note).setWidth 7 } := by
  unfold Channel.adjusted
  rw [if_neg (by bv_omega), if_pos h]

theorem adjusted_of_gt (h : 0x80#8 < r) :
    x.adjusted rom r =
      { x with freq := freqAt rom ((r.setWidth 7).setWidth 8), vibtime := 0x00#8, lastnote := r.setWidth 7 } := by
  unfold Channel.adjusted
  rw [if_neg (by bv_omega), if_neg (by bv_omega)]

end

/-- What the adjustment that a right byte stands for writes. -/
theorem noteAdjust_spec (r : Byte) (s : State) :
    (noteAdjust r s).ch s.chan = (s.ch s.chan).adjusted s.freqRom r ∧ OnlyChannel s (noteAdjust r s) ∧
    (noteAdjust r s).phase = phaseAfterAdjust r := by
  rcases noteAdjust_cases r s with ⟨hkeep, he⟩ | ⟨hrel, he⟩ | ⟨habs, he⟩
  · subst hkeep
    rw [he, adjusted_of_keep]
    exact ⟨goto_ch .., goto_onlyChannel .., rfl⟩
  · obtain ⟨hch, hframe, -⟩ := applyNote_spec (relativeNote (r.setWidth 7) s.cur.note) s
    rw [← he] at hch hframe
    rw [relativeNote_of_lt hrel] at hch
    exact ⟨hch.trans (adjusted_of_lt _ _ hrel).symm, hframe, noteAdjust_phase r s⟩
  · obtain ⟨hch, hframe, -⟩ := applyNote_spec (r.setWidth 7) s
    rw [← he] at hch hframe
    exact ⟨hch.trans (adjusted_of_gt _ _ habs).symm, hframe, noteAdjust_phase r s⟩

/-- Settles O35: the relative and the absolute adjustment apply a note, and `noteAdjust_spec` is any right byte's. -/
theorem noteAdjustment : Obligations.NoteAdjustment := by
  intro s r o i
  refine ⟨rfl, ⟨_, rfl, ?_⟩, ⟨_, rfl, ?_⟩, noteAdjust_spec r s⟩
  · have hrelative := applyNote_spec (relativeNote o (s.ch s.chan).note) s
    rw [relativeNote_eq, noteIndex_ofNat] at hrelative
    exact relativeNote_eq o (s.ch s.chan).note ▸ hrelative
  · have habsolute := applyNote_spec i s
    rw [← BitVec.ofNat_toNat] at habsolute
    exact habsolute

/-! ## Entries passed at once (R233 to R236) -/

theorem OnlyChannel.chan {s t : State} (h : OnlyChannel s t) : t.chan = s.chan := by
  obtain ⟨⟨hchan, -⟩, -⟩ := h
  exact hchan

theorem OnlyChannel.freqRom {s t : State} (h : OnlyChannel s t) : t.freqRom = s.freqRom := by
  obtain ⟨-, -, -, -, -, -, hrom⟩ := h
  exact hrom

/-- Passing an entry, after a change of the channel being stepped: the cursor advances, and then the right byte adjusts
the note. -/
theorem wavePass_spec {s t : State} (h : OnlyChannel s t) (r : Byte) :
    (noteAdjust r (waveAdvance t)).ch s.chan = (t.ch s.chan).passed.adjusted s.freqRom r ∧
    OnlyChannel s (noteAdjust r (waveAdvance t)) ∧ (noteAdjust r (waveAdvance t)).phase = phaseAfterAdjust r := by
  have hpass : OnlyChannel s (waveAdvance t) := h.trans (modCur_onlyChannel _ t).1
  obtain ⟨hch, hframe, hphase⟩ := noteAdjust_spec r (waveAdvance t)
  have hpassed : (waveAdvance t).ch t.chan = (t.ch t.chan).passed := waveAdvance_ch t
  rw [h.chan] at hpassed
  rw [hpass.chan, hpass.freqRom, hpassed] at hch
  exact ⟨hch, hpass.trans hframe, hphase⟩

/-- A control nibble as a byte, with no waveform selected. -/
theorem zero_append_nibble (ctl : BitVec 4) : (0x0#4 ++ ctl : Byte) = ctl.setWidth 8 := by
  apply BitVec.eq_of_toNat_eq
  rw [BitVec.toNat_append, BitVec.toNat_setWidth_of_le (by decide)]
  simp

/-- Settles O32: the waveform is kept or written, and then the entry is passed. -/
theorem waveEntriesArePassed : Obligations.WaveEntriesArePassed := by
  intro s l r ctl
  have hwave (w : Byte) :=
    wavePass_spec (modCur_onlyChannel (fun x => { x with wave := w }) s).1 r
  simp only [modCur_ch_self] at hwave
  exact ⟨⟨_, rfl, wavePass_spec (.refl s) r⟩, ⟨_, rfl, hwave l⟩, ⟨_, rfl, zero_append_nibble ctl ▸ hwave _⟩⟩

/-! ## Delay entries (R232) -/

/-- One step of a delay entry: it is passed where the counter has reached its ticks, and else the counter goes up. -/
theorem exec_wDelay_spec (n : BitVec 4) (r : Byte) (s : State) :
    ∃ t, exec (.wDelay n r) s = .next t ∧ OnlyChannel s t ∧
      if (s.ch s.chan).wavetime = 0x0#4 ++ n then
        t.ch s.chan = Channel.adjusted s.freqRom r (Channel.passed (s.ch s.chan)) ∧ t.phase = phaseAfterAdjust r
      else
        t.ch s.chan = { s.ch s.chan with wavetime := (s.ch s.chan).wavetime + 1#8 } ∧ t.phase = .tickNEffects := by
  rw [zero_append_nibble]
  refine ⟨_, rfl, ?_⟩
  by_cases hdone : (s.ch s.chan).wavetime = n.setWidth 8
  · have hdone' : s.cur.wavetime = n.setWidth 8 := hdone
    obtain ⟨hch, hframe, hphase⟩ := wavePass_spec (.refl s) r
    rw [if_pos hdone, if_pos hdone']
    exact ⟨hframe, hch, hphase⟩
  · have hwaits : ¬ s.cur.wavetime = n.setWidth 8 := hdone
    rw [if_neg hdone, if_neg hwaits]
    exact ⟨(modCur_onlyChannel ..).1.trans (goto_onlyChannel ..), (goto_ch ..).trans (modCur_ch_self ..), rfl⟩

section
variable {n : BitVec 4} {r : Byte} {s : State} {k : Nat}

/-- The counter at `k` has reached the ticks of the entry just where `k` is their number. -/
theorem ofNat_eq_delay_iff (hk : k ≤ n.toNat) : BitVec.ofNat 8 k = 0x0#4 ++ n ↔ k = n.toNat := by
  rw [zero_append_nibble]
  bv_omega

/-- After `k` ticks under a delay entry of at least as many, reached with the counter at 0, the counter is at `k`. -/
theorem delay_iterate (hzero : (s.ch s.chan).wavetime = 0x00#8) (hk : k ≤ n.toNat) :
    OnlyChannel s ((afterInstr (.wDelay n r))^[k] s) ∧
    ((afterInstr (.wDelay n r))^[k] s).ch s.chan = { s.ch s.chan with wavetime := BitVec.ofNat 8 k } := by
  induction k with
  | zero => exact ⟨.refl s, by rw [← hzero]; rfl⟩
  | succ k ih =>
    obtain ⟨hframe, hch⟩ := ih (by omega)
    obtain ⟨t, he, kframe, hcases⟩ := exec_wDelay_spec n r ((afterInstr (.wDelay n r))^[k] s)
    have hwaits : ¬ BitVec.ofNat 8 k = 0x0#4 ++ n := by rw [ofNat_eq_delay_iff (by omega)]; omega
    rw [hframe.chan, hch, if_neg hwaits] at hcases
    obtain ⟨kch, -⟩ := hcases
    rw [Function.iterate_succ_apply', afterInstr, he, settled_next, kch, BitVec.ofNat_add]
    exact ⟨hframe.trans kframe, rfl⟩

end

/-- Settles O33: one step is `exec_wDelay_spec`; the step of tick `k` is that step after the `k - 1` ticks of
`delay_iterate`. -/
theorem delayEntries : Obligations.DelayEntries := by
  refine ⟨fun s n r => exec_wDelay_spec n r s, fun s n r k _ hzero hfirst hlast => ?_⟩
  obtain ⟨hframe, hch⟩ := delay_iterate (r := r) hzero (show k - 1 ≤ n.toNat by omega)
  obtain ⟨t, he, kframe, hcases⟩ := exec_wDelay_spec n r ((afterInstr (.wDelay n r))^[k - 1] s)
  refine ⟨t, he, hframe.trans kframe, ?_⟩
  rw [hframe.chan, hframe.freqRom, hch] at hcases
  have hreached := ofNat_eq_delay_iff (n := n) (show k - 1 ≤ n.toNat by omega)
  by_cases hwaits : k ≤ n.toNat
  · rw [if_neg (by rw [hreached]; omega), ← BitVec.ofNat_add, Nat.sub_add_cancel hfirst] at hcases
    rw [if_pos hwaits]
    exact hcases
  · rw [if_pos (by rw [hreached]; omega)] at hcases
    rw [if_neg hwaits]
    exact hcases

end Sys2Proof.Machine
end

section
/-! SUPPORT. The jumps of the three walkers (R230, R237, R284, R291). -/

namespace Sys2Proof.Machine

theorem jumpChained_eq (k : Table) (r : Byte) (s : State) :
    jumpChained k r s = decide (r ≠ 0x00#8 ∧ s.left k r = 0xFF#8) := loadsJump_eq k r s

theorem jumpTarget_eq (k : Table) (r : Byte) (s : State) :
    jumpTarget k r s = if decide (r ≠ 0x00#8 ∧ s.left k r = 0xFF#8) then 0x00#8 else r := by
  rw [jumpTarget, jumpChained_eq]

/-- What a jump of the wave walker writes (R237). -/
theorem exec_wJump_spec (r : Byte) (s : State) :
    ∃ t, exec (.wJump r) s = .next t ∧ t.ch s.chan = { s.ch s.chan with wavePtr := jumpTarget .wave r s } ∧
      OnlyChannelOrRaise (jumpChained .wave r s) .jumpIntoJumpWave s t ∧
      t.phase = if jumpTarget .wave r s = 0x00#8 then .tickNEffects else .waveExec := by
  refine ⟨_, rfl, ?_, ?_, rfl⟩
  · rw [goto_ch, raiseFatalIf_ch, modCur_ch_self]
  · exact ((modCur_onlyChannel ..).1.raise ..).trans (goto_onlyChannel ..)

/-- A jump of the pulse walker: where it halts the walker, the pulse phase ends. -/
theorem exec_pJump (r : Byte) (s : State) :
    exec (.pJump r) s =
      .next ((pulseJumped r s).goto
        (if jumpTarget .pulse r s = 0x00#8 then phaseAfterPulse s else .pulseExec)) := by
  have hexec : exec (.pJump r) s = .next (if jumpTarget .pulse r s = 0x00#8 then afterPulse (pulseJumped r s)
      else (pulseJumped r s).goto .pulseExec) := rfl
  rw [hexec, afterPulse_eq, (pulseJumped_sounds r s).phaseAfterPulse_eq, ← apply_ite]

/-- What a jump of the pulse walker writes (R284). -/
theorem exec_pJump_spec (r : Byte) (s : State) :
    ∃ t, exec (.pJump r) s = .next t ∧ t.ch s.chan = { s.ch s.chan with pulsePtr := jumpTarget .pulse r s } ∧
      OnlyChannelOrRaise (jumpChained .pulse r s) .jumpIntoJumpPulse s t ∧
      t.phase = if jumpTarget .pulse r s = 0x00#8 then phaseAfterPulse s else .pulseExec := by
  refine ⟨_, exec_pJump r s, ?_, ?_, rfl⟩
  · rw [goto_ch, pulseJumped, raiseFatalIf_ch, modCur_ch_self]
  · exact ((modCur_onlyChannel ..).1.raise ..).trans (goto_onlyChannel ..)

/-- A state with the cursor of the filter walker at `p`. -/
def State.filterAt (p : Byte) (s : State) : State := { s with filtPtr := p }

theorem filterAt_ch (p : Byte) (s : State) (c : Chan) : (s.filterAt p).ch c = s.ch c := by cases c <;> rfl

/-- What a jump of the filter walker writes (R291). -/
theorem exec_fJump_spec (r : Byte) (s : State) :
    ∃ t, exec (.fJump r) s = .next t ∧ SameShared (s.filterAt (jumpTarget .filter r s)) t ∧ SameChannels s t ∧
      ControlAfter (jumpChained .filter r s) .jumpIntoJumpFilter s t ∧ SamePlace s t ∧ SameImageBut [] s t ∧
      SameCells s t ∧ t.phase = if jumpTarget .filter r s = 0x00#8 then .sharedOut else .filter := by
  obtain ⟨hcontrol, hchannels, hshared, hreg, hmem, hplace, -⟩ :=
    raiseFatalIf_spec (jumpChained .filter r s) .jumpIntoJumpFilter (s.filterAt (jumpTarget .filter r s))
  exact ⟨_, rfl, hshared, fun d => (goto_ch ..).trans ((hchannels d).trans (filterAt_ch ..)), hcontrol, hplace,
    sameImage_of_reg hreg, sameCells_of_mem hmem (raiseFatalIf_freqRom ..), rfl⟩

/-- Settles O34: what each walker's jump writes, with the target and the raise in the statement's words. -/
theorem jumpsFollowOneTarget : Obligations.JumpsFollowOneTarget := by
  intro s r chained target
  have hchained (k : Table) : jumpChained k r s = chained k := jumpChained_eq k r s
  have htarget (k : Table) : jumpTarget k r s = target k := jumpTarget_eq k r s
  have hwave := exec_wJump_spec r s
  have hpulse := exec_pJump_spec r s
  obtain ⟨t, he, ⟨hptr, htime, htype, hcutoff, hctrl, hfader, hfunk0, hfunk1⟩, hchannels, hrest⟩ := exec_fJump_spec r s
  rw [hchained, htarget] at hwave hpulse hrest
  exact ⟨hwave, hpulse, t, he, hptr.trans (htarget .filter), htime, htype, hcutoff, hctrl, hfader, hfunk0, hfunk1,
    hchannels, hrest⟩

end Sys2Proof.Machine
end

section
/-! SUPPORT. The commands that write a register, from a row and from the wave table, and the other embedded commands
(R205 to R207, R211 to R213, R239 to R248, R251 to R254). -/

namespace Sys2Proof.Machine

/-! ## Passing the entry after a command (R239) -/

section
variable {s t : State}

/-- After a command that changes the channel being stepped only. -/
theorem OnlyChannel.passCommand (h : OnlyChannel s t) :
    (wavePassCommand t).ch s.chan = (t.ch s.chan).passed ∧ OnlyChannel s (wavePassCommand t) ∧
    (wavePassCommand t).phase = .pulseExec := by
  obtain ⟨hch, hframe, hphase⟩ := wavePassCommand_spec t
  rw [h.chan] at hch
  exact ⟨hch, h.trans hframe, hphase⟩

/-- After a command that writes shared registers only. -/
theorem OnlyShared.passCommand (h : OnlyShared s t) :
    let u := wavePassCommand t
    SameShared t u ∧ u.ch s.chan = (s.ch s.chan).passed ∧ SameOthers s.chan s u ∧ SameControl s u ∧ SamePlace s u ∧
    SameImageBut [] s u ∧ SameCells s u ∧ u.phase = .pulseExec := by
  obtain ⟨hplace, hchannels, hcontrol, himage, hcells⟩ := h
  obtain ⟨hch, ⟨kplace, kothers, kshared, kcontrol, kimage, kcells⟩, hphase⟩ := wavePassCommand_spec t
  rw [hplace.1, hchannels] at hch
  rw [hplace.1] at kothers
  exact ⟨kshared, hch, fun d hd => (kothers d hd).trans (hchannels d), hcontrol.trans kcontrol, hplace.trans kplace,
    himage.trans kimage, hcells.trans kcells, hphase⟩

end

/-! ## Envelope and waveform (R205 to R207, R245 to R247) -/

/-- Writing an image byte changes nothing else. -/
theorem setReg_onlyImage (a : Fin 25) (v : Byte) (s : State) : OnlyImage [a] s (s.setReg a v) :=
  ⟨⟨rfl, rfl⟩, setReg_ch s a v, ⟨rfl, rfl, rfl, rfl, rfl, rfl, rfl, rfl⟩, ⟨rfl, rfl, rfl, rfl⟩,
    fun b hb => setReg_regAt_ne s a b v (mt List.mem_singleton.mpr hb), fun _ => rfl, rfl⟩

/-- A write of an image byte, and then the passing of the entry. -/
theorem wavePassCommand_setReg (a : Fin 25) (v : Byte) (s : State) :
    let u := wavePassCommand (s.setReg a v)
    u.regAt a = v ∧ SameImageBut [a] s u ∧ u.ch s.chan = (s.ch s.chan).passed ∧ SameOthers s.chan s u ∧
    SameShared s u ∧ SameControl s u ∧ SameCells s u ∧ SamePlace s u ∧ u.phase = .pulseExec := by
  obtain ⟨hplace, hchannels, hshared, hcontrol, himage, hcells⟩ := setReg_onlyImage a v s
  obtain ⟨hch, ⟨kplace, kothers, kshared, kcontrol, kimage, kcells⟩, hphase⟩ := wavePassCommand_spec (s.setReg a v)
  have hregs (b : Fin 25) : (wavePassCommand (s.setReg a v)).regAt b = (s.setReg a v).regAt b :=
    kimage b List.not_mem_nil
  rw [setReg_chan, setReg_ch] at hch
  exact ⟨(hregs a).trans (setReg_regAt_self ..), fun b hb => (hregs b).trans (himage b hb), hch,
    fun d hd => (kothers d hd).trans (hchannels d), hshared.trans kshared, hcontrol.trans kcontrol,
    hcells.trans kcells, hplace.trans kplace, hphase⟩

/-- An update of the channel being stepped, and then the passing of the entry. -/
theorem wavePassCommand_modCur (f : Channel → Channel) (s : State) :
    (wavePassCommand (s.modCur f)).ch s.chan = (f (s.ch s.chan)).passed ∧
    OnlyChannel s (wavePassCommand (s.modCur f)) ∧ (wavePassCommand (s.modCur f)).phase = .pulseExec := by
  have hpassed := (modCur_onlyChannel f s).1.passCommand
  rwa [modCur_ch_self] at hpassed

/-- Settles O28: the write of an image byte or of the waveform byte, and for an embedded command the passing of its
entry after it. -/
theorem registerCommands : Obligations.RegisterCommands := by
  intro s d
  exact ⟨⟨_, rfl, setReg_regAt_self .., setReg_onlyImage .., rfl⟩,
    ⟨_, rfl, setReg_regAt_self .., setReg_onlyImage .., rfl⟩,
    ⟨_, rfl, wavePassCommand_setReg ..⟩, ⟨_, rfl, wavePassCommand_setReg ..⟩,
    ⟨_, rfl, modCur_ch_self .., modCur_onlyChannel ..⟩, ⟨_, rfl, wavePassCommand_modCur ..⟩⟩

/-! ## Filter control, cutoff and master volume (R211 to R213, R251 to R253) -/

/-- New values for the shared filter and volume registers change nothing else. -/
theorem filterRegisters_onlyShared (s : State) (ptr type cutoff ctrl : Byte) (fader : BitVec 4) :
    OnlyShared s { s with filtPtr := ptr, filtType := type, filtCutoff := cutoff, filtCtrl := ctrl, fader := fader } :=
  ⟨⟨rfl, rfl⟩, fun c => by cases c <;> rfl, ⟨rfl, rfl, rfl, rfl⟩, fun _ _ => rfl, fun _ => rfl, rfl⟩

/-- The master volume is the operand where that is below 16 (R213). -/
theorem setMasterVolume_eq (d : Byte) (s : State) :
    setMasterVolume d s = { s with fader := if d.toNat < 16 then BitVec.ofNat 4 d.toNat else s.fader } := by
  rcases setMasterVolume_cases d s with ⟨hlow, he⟩ | ⟨hhigh, he⟩
  · rw [he, if_pos (show d.toNat < 16 from hlow), BitVec.ofNat_toNat]
  · rw [he, if_neg (show ¬ d.toNat < 16 from hhigh)]

/-- Settles O30: each of the three writes shared registers only, and an embedded one passes its entry after it. -/
theorem filterAndVolumeCommands : Obligations.FilterAndVolumeCommands := by
  intro s d control cutoff volume row embedded
  have hrow {t : State} (h : OnlyShared s t) (hphase : t.phase = s.phase) : row t := by
    obtain ⟨hplace, hchannels, hcontrol, himage, hcells⟩ := h
    exact ⟨hchannels, hcontrol, hplace, himage, hcells, hphase⟩
  have controlOnly : OnlyShared s (setFilterControl d s) := filterRegisters_onlyShared ..
  have cutoffOnly : OnlyShared s { s with filtCutoff := d } := filterRegisters_onlyShared ..
  have volumeOnly : OnlyShared s { s with fader := if d.toNat < 16 then BitVec.ofNat 4 d.toNat else s.fader } :=
    filterRegisters_onlyShared ..
  have hsmv : exec (.smv d) s = .next (setMasterVolume d s) := rfl
  have hwxSmv : exec (.wxSmv d) s = .next (wavePassCommand (setMasterVolume d s)) := rfl
  rw [setMasterVolume_eq] at hsmv hwxSmv
  refine ⟨⟨_, rfl, ⟨rfl, rfl, rfl, rfl, rfl, rfl, rfl, rfl⟩, hrow controlOnly rfl⟩, ⟨_, rfl, ?_⟩,
    ⟨_, rfl, ⟨rfl, rfl, rfl, rfl, rfl, rfl, rfl, rfl⟩, hrow cutoffOnly rfl⟩, ⟨_, rfl, ?_⟩,
    ⟨_, hsmv, ⟨rfl, rfl, rfl, rfl, rfl, rfl, rfl, rfl⟩, hrow volumeOnly rfl⟩, ⟨_, hwxSmv, ?_⟩⟩
  · obtain ⟨⟨kptr, ktime, ktype, kcutoff, kctrl, kfader, kfunk0, kfunk1⟩, hpassed⟩ := controlOnly.passCommand
    exact ⟨⟨kctrl, kptr, ktime, ktype, kcutoff, kfader, kfunk0, kfunk1⟩, hpassed⟩
  · obtain ⟨⟨kptr, ktime, ktype, kcutoff, kctrl, kfader, kfunk0, kfunk1⟩, hpassed⟩ := cutoffOnly.passCommand
    exact ⟨⟨kcutoff, kptr, ktime, ktype, kctrl, kfader, kfunk0, kfunk1⟩, hpassed⟩
  · obtain ⟨⟨kptr, ktime, ktype, kcutoff, kctrl, kfader, kfunk0, kfunk1⟩, hpassed⟩ := volumeOnly.passCommand
    exact ⟨⟨kfader, kptr, ktime, ktype, kcutoff, kctrl, kfunk0, kfunk1⟩, hpassed⟩

/-! ## Slides and vibrato, and the illegal commands (R240 to R244, R248, R254) -/

/-- The commands that are illegal in the wave table raise their cause and pass their entry. -/
theorem exec_illegalWaveCommand {i : Instr} {r : Byte} (h : i ∈ [Instr.wxNop r, .wxSwp r, .wxFnk r]) (s : State) :
    exec i s = .next (wavePassCommand (raiseFatalIf true .illegalWaveCommand s)) := by
  simp only [List.mem_cons, List.not_mem_nil, or_false] at h
  rcases h with rfl | rfl | rfl <;> rfl

/-- Settles O36: the step of a legal command updates the channel, an illegal one raises; then each passes its entry. -/
theorem embeddedCommands : Obligations.EmbeddedCommands := by
  constructor
  · intro s r x
    exact ⟨⟨_, rfl, wavePassCommand_modCur ..⟩, ⟨_, rfl, wavePassCommand_modCur ..⟩,
      ⟨_, rfl, (modCur_onlyChannel _ s).1.passCommand⟩, ⟨_, rfl, (modCur_onlyChannel _ s).1.passCommand⟩⟩
  · intro s r i hi
    refine ⟨_, exec_illegalWaveCommand hi s, ?_⟩
    obtain ⟨hch, hpassed, hphase⟩ := wavePassCommand_spec (raiseFatalIf true .illegalWaveCommand s)
    obtain ⟨hplace, hothers, hshared, ⟨hplaying, hloop, hfatal, haction⟩, himage, hcells⟩ :=
      ((OnlyChannel.refl s).raise true .illegalWaveCommand).trans hpassed
    rw [raiseFatalIf_chan, raiseFatalIf_ch] at hch
    exact ⟨hch, hfatal, haction, hplaying, hloop, hplace, hothers, hshared, himage, hcells, hphase⟩

end Sys2Proof.Machine
end

section
/-! SUPPORT. Slides, tone-portamento and vibrato by an address, one step and repeated steps (R260, R261, R263, R264). -/

namespace Sys2Proof.Machine

/-! ## The slide step (R260, R261) -/

/-- The note-relative step in plain numbers; a count of 16 or more shifts every bit of the difference out. -/
theorem toNat_relStep (rom : Vector Word 96) (n : BitVec 7) (sh : Byte) :
    (relStep rom n sh).toNat =
      ((freqAt rom (BitVec.ofNat 8 (n.toNat + 1))).toNat + 65536 - (freqAt rom (BitVec.ofNat 8 n.toNat)).toNat) % 65536
        / 2 ^ sh.toNat := by
  have hnext : n.setWidth 8 + 1#8 = BitVec.ofNat 8 (n.toNat + 1) := by bv_omega
  have hthis : n.setWidth 8 = BitVec.ofNat 8 n.toNat := by bv_omega
  have hdifference (a b : Word) : (a - b).toNat = (a.toNat + 65536 - b.toNat) % 65536 := by bv_omega
  unfold relStep
  split_ifs with hsh
  · have hpow : 65536 ≤ 2 ^ sh.toNat := Nat.pow_le_pow_right (n := 2) (by omega) hsh
    exact (Nat.div_eq_of_lt ((Nat.mod_lt _ (by omega)).trans_le hpow)).symm
  · rw [BitVec.toNat_ushiftRight, Nat.shiftRight_eq_div_pow, hdifference, hnext, hthis]

/-- From the last note of the table on both lookups read the last entry (R261, R300). -/
theorem relStep_of_last_note {n : BitVec 7} (h : 95#7 ≤ n) (rom : Vector Word 96) (sh : Byte) :
    relStep rom n sh = 0#16 := by
  have hthis : freqAt rom (n.setWidth 8) = rom[95] := freqAt_of_ge rom _ (by bv_omega)
  have hnext : freqAt rom (n.setWidth 8 + 1#8) = rom[95] := freqAt_of_ge rom _ (by bv_omega)
  unfold relStep
  rw [hnext, hthis, BitVec.sub_self, BitVec.zero_ushiftRight, ite_self]

/-- Settles O38: address 0 apart, the step is that of the entry at the address. -/
theorem slideSteps : Obligations.SlideSteps := by
  constructor
  · intro c p s v
    by_cases hp : p = 0x00#8
    · rw [if_pos hp]; exact if_pos hp
    · rw [if_neg hp, slideStep_of_entry hp rfl rfl, slideReading_eq]
  · intro rom n sh
    exact ⟨toNat_relStep rom n sh, fun hn => relStep_of_last_note hn rom sh, fun hsh => if_pos hsh⟩

/-! ## Tone-portamento (R263) -/

section
variable {rom : Vector Word 96} {step : Word} {x : Channel}

/-- Tone-portamento moves neither the note it approaches nor the one a relative step is taken from. -/
theorem approachTarget_notes (rom : Vector Word 96) (step : Word) (x : Channel) :
    (approachTarget rom step x).note = x.note ∧ (approachTarget rom step x).lastnote = x.lastnote := by
  rw [approachTarget_eq]
  dsimp only
  split_ifs <;> exact ⟨rfl, rfl⟩

/-- A step from below that cannot wrap. -/
theorem approachTarget_from_below (hbelow : x.freq.toNat ≤ (freqAt rom x.note).toNat)
    (hstep : (freqAt rom x.note).toNat + step.toNat ≤ 65536) :
    (approachTarget rom step x).freq.toNat = min (x.freq.toNat + step.toNat) (freqAt rom x.note).toNat := by
  rw [approachTarget_eq]
  generalize freqAt rom x.note = target at *
  dsimp only
  split_ifs <;> bv_omega

/-- A step from above that cannot wrap. -/
theorem approachTarget_from_above (habove : (freqAt rom x.note).toNat ≤ x.freq.toNat)
    (hstep : step.toNat ≤ (freqAt rom x.note).toNat + 1) :
    (approachTarget rom step x).freq.toNat = max (x.freq.toNat - step.toNat) (freqAt rom x.note).toNat := by
  rw [approachTarget_eq]
  generalize freqAt rom x.note = target at *
  dsimp only
  split_ifs <;> bv_omega

theorem approachTarget_iterate_from_below (k : Nat) (hbelow : x.freq.toNat ≤ (freqAt rom x.note).toNat)
    (hstep : (freqAt rom x.note).toNat + step.toNat ≤ 65536) :
    ((approachTarget rom step)^[k] x).freq.toNat =
      min (x.freq.toNat + k * step.toNat) (freqAt rom x.note).toNat := by
  induction k generalizing x with
  | zero => rw [Nat.zero_mul]; exact (Nat.min_eq_left hbelow).symm
  | succ k ih =>
    have hnote := (approachTarget_notes rom step x).1
    have hfreq := approachTarget_from_below hbelow hstep
    rw [Function.iterate_succ_apply, ih (by rw [hfreq, hnote]; omega) (by rwa [hnote]), hfreq, hnote, Nat.succ_mul]
    omega

theorem approachTarget_iterate_from_above (k : Nat) (habove : (freqAt rom x.note).toNat ≤ x.freq.toNat)
    (hstep : step.toNat ≤ (freqAt rom x.note).toNat + 1) :
    ((approachTarget rom step)^[k] x).freq.toNat =
      max (x.freq.toNat - k * step.toNat) (freqAt rom x.note).toNat := by
  induction k generalizing x with
  | zero => rw [Nat.zero_mul]; exact (Nat.max_eq_left habove).symm
  | succ k ih =>
    have hnote := (approachTarget_notes rom step x).1
    have hfreq := approachTarget_from_above habove hstep
    rw [Function.iterate_succ_apply, ih (by rw [hfreq, hnote]; omega) (by rwa [hnote]), hfreq, hnote, Nat.succ_mul]
    omega

end

/-- The slide step depends on the speed table, the frequency ROM and the last note only. -/
theorem slideStep_congr {s t : State} {c : Chan} (hmem : t.mem = s.mem) (hrom : t.freqRom = s.freqRom)
    (hlast : (t.ch c).lastnote = (s.ch c).lastnote) (p : Byte) : slideStep c p t = slideStep c p s := by
  simp only [slideStep, State.left, State.right, hmem, hrom, hlast]

/-- Tone-portamento after tone-portamento takes the same step towards the same target. -/
theorem tonePorta_iterate_ch {p : Byte} (hp : p ≠ 0x00#8) (c : Chan) (k : Nat) (s : State) :
    ((tonePorta c p)^[k] s).ch c = (approachTarget s.freqRom (slideStep c p s))^[k] (s.ch c) := by
  induction k generalizing s with
  | zero => rfl
  | succ k ih =>
    have hch := tonePorta_of_ne_zero (s := s) hp c
    have hrom : (tonePorta c p s).freqRom = s.freqRom := modCh_freqRom ..
    have hstep : slideStep c p (tonePorta c p s) = slideStep c p s :=
      slideStep_congr (modCh_mem ..) hrom (hch ▸ (approachTarget_notes ..).2) p
    rw [Function.iterate_succ_apply, Function.iterate_succ_apply, ih, hrom, hstep, hch]

/-- Settles O39: the step is `approachTarget_eq`, and the repeated steps are those of the channel alone. -/
theorem tonePortamentoStepsToTheTarget : Obligations.TonePortamentoStepsToTheTarget := by
  constructor
  · intro c p s x target up down
    by_cases hp : p = 0x00#8
    · rw [tonePorta, if_pos hp, if_pos hp]; rfl
    · rw [tonePorta, if_neg hp, if_neg hp, State.modCh, approachTarget_eq]
  · intro c p s k hp x target d t
    have hch : t.ch c = (approachTarget s.freqRom (slideStep c p s))^[k] x := tonePorta_iterate_ch hp c k s
    rw [hch]
    exact ⟨approachTarget_iterate_from_below k, approachTarget_iterate_from_above k⟩

/-! ## One vibrato step (R264) -/

/-- The compare value and the step of an address. -/
theorem vibOperand_spec (c : Chan) (p : Byte) (s : State) :
    (vibOperand c p s).1.toNat = (if p = 0x00#8 then 0 else (s.left .speed p).toNat % 128) ∧
    (vibOperand c p s).2 =
      if p = 0x00#8 then 0#16
      else if (s.left .speed p).toNat < 128 then (s.right .speed p).setWidth 16
      else relStep s.freqRom (s.ch c).lastnote (s.right .speed p) := by
  unfold vibOperand
  by_cases hp : p = 0x00#8
  · rw [if_pos hp, if_pos hp, if_pos hp]; exact ⟨rfl, rfl⟩
  · rw [if_neg hp, if_neg hp, if_neg hp]; exact vibReading_spec ..

/-- Settles O40: `vibrateBy_eq` with the compare value and the step of the address. -/
theorem vibratoStep : Obligations.VibratoStep := by
  intro c p s x l r cmp step turned v
  obtain ⟨hcmp, hstep⟩ := vibOperand_spec c p s
  rw [vibrato, State.modCh, vibrateBy_eq, hcmp, hstep]
  rfl

/-! ## The vibrato cycle (R264, assumption log 16) -/

/-- The channel with vibrato phase `v` and frequency `f`. -/
def Channel.vibratedTo (x : Channel) (v : Nat) (f : Word) : Channel := { x with vibtime := BitVec.ofNat 8 v, freq := f }

/-- What a step that reaches a phase of the parity of `v` adds to the frequency: bit 0 says whether it subtracts. -/
def vibratoDelta (v : Nat) (step : Word) : Word := if v % 2 = 1 then -step else step

/-- Phases are counted modulo 256. -/
theorem vibratedTo_mod (x : Channel) (v : Nat) (f : Word) : x.vibratedTo (v % 256) f = x.vibratedTo v f := by
  have hphase : BitVec.ofNat 8 (v % 256) = BitVec.ofNat 8 v := by bv_omega
  rw [Channel.vibratedTo, hphase]; rfl

theorem eq_vibratedTo_zero {x : Channel} (h : x.vibtime = 0x00#8) : x = x.vibratedTo 0 x.freq :=
  congrArg (fun w => { x with vibtime := w }) h

theorem vibratoDelta_congr {v w : Nat} (h : v % 2 = w % 2) (step : Word) :
    vibratoDelta v step = vibratoDelta w step := by rw [vibratoDelta, vibratoDelta, h]

/-- Phases of different parity move the frequency in opposite directions. -/
theorem vibratoDelta_neg {v w : Nat} (h : v % 2 ≠ w % 2) (step : Word) :
    vibratoDelta v step = -vibratoDelta w step := by
  unfold vibratoDelta
  rcases Nat.mod_two_eq_zero_or_one w with hw | hw
  · rw [if_pos (by omega), if_neg (by omega)]
  · rw [if_neg (by omega), if_pos hw, BitVec.neg_neg]

section
variable {cmp : Byte} {v : Nat} (x : Channel) (step f : Word)

theorem vibrateBy_vibratedTo (hv : v < 256) :
    vibrateBy (cmp, step) (x.vibratedTo v f) =
      x.vibratedTo (vibPhaseNat v cmp.toNat) (f + vibratoDelta (vibPhaseNat v cmp.toNat) step) := by
  have hphase : (x.vibratedTo v f).vibtime.toNat = v := Nat.mod_eq_of_lt hv
  rw [vibrateBy_eq, hphase]
  unfold vibratoDelta
  split_ifs
  · rw [← BitVec.sub_eq_add_neg]; rfl
  · rfl

/-- Where the phase is not inverted it goes up by 2. -/
theorem vibrateBy_straight (hv : v ≤ cmp.toNat ∨ 128 ≤ v ∧ v < 256) :
    vibrateBy (cmp, step) (x.vibratedTo v f) = x.vibratedTo (v + 2) (f + vibratoDelta v step) := by
  have hcmp : cmp.toNat < 256 := cmp.isLt
  have hphase : vibPhaseNat v cmp.toNat = (v + 2) % 256 := congrArg (fun n => (n + 2) % 256) (if_neg (by omega))
  rw [vibrateBy_vibratedTo x step f (by omega), hphase, vibratedTo_mod,
    vibratoDelta_congr (show (v + 2) % 256 % 2 = v % 2 by omega)]

/-- The phase is inverted above the compare value, and the direction with it. -/
theorem vibrateBy_turn (hcmp : cmp.toNat < v) (hv : v < 128) :
    vibrateBy (cmp, step) (x.vibratedTo v f) = x.vibratedTo (257 - v) (f - vibratoDelta v step) := by
  have hphase : vibPhaseNat v cmp.toNat = (257 - v) % 256 := by
    unfold vibPhaseNat
    rw [if_pos ⟨hcmp, hv⟩]
    omega
  rw [vibrateBy_vibratedTo x step f (by omega), hphase, vibratedTo_mod,
    vibratoDelta_neg (show (257 - v) % 256 % 2 ≠ v % 2 by omega), ← BitVec.sub_eq_add_neg]

/-- Steps that pass through no inversion. -/
theorem vibrateBy_iterate_straight (n : Nat)
    (h : ∀ j < n, v + 2 * j ≤ cmp.toNat ∨ 128 ≤ v + 2 * j ∧ v + 2 * j < 256) :
    (vibrateBy (cmp, step))^[n] (x.vibratedTo v f) =
      x.vibratedTo (v + 2 * n) (f + BitVec.ofNat 16 n * vibratoDelta v step) := by
  induction n with
  | zero => simp
  | succ n ih =>
    have hmultiple : BitVec.ofNat 16 (n + 1) * vibratoDelta v step =
        BitVec.ofNat 16 n * vibratoDelta v step + vibratoDelta v step := by
      rw [BitVec.ofNat_add, BitVec.add_mul, BitVec.one_mul]
    rw [Function.iterate_succ_apply', ih fun j hj => h j (by omega),
      vibrateBy_straight x step _ (h n (by omega)),
      vibratoDelta_congr (show (v + 2 * n) % 2 = v % 2 by omega), hmultiple, BitVec.add_assoc]
    rfl

/-- Half a cycle: the phase goes up past the compare value in `m` steps, is inverted, and in as many steps comes back to
where it started, but for the parity. What those steps add they also subtract; the inverting step is left over. -/
theorem vibrateBy_half_cycle {m : Nat} (hv : v ≤ 1) (hcmp : cmp.toNat < v + 2 * m)
    (hlast : v + 2 * m ≤ cmp.toNat + 2) (hturn : v + 2 * m < 128) :
    (vibrateBy (cmp, step))^[2 * m + 1] (x.vibratedTo v f) = x.vibratedTo (257 - v) (f - vibratoDelta v step) := by
  have hout := vibrateBy_iterate_straight (cmp := cmp) (v := v) x step f m fun j hj => .inl (by omega)
  have hturned := vibrateBy_turn x step (f + BitVec.ofNat 16 m * vibratoDelta v step) hcmp hturn
  have hback := vibrateBy_iterate_straight (cmp := cmp) (v := 257 - (v + 2 * m)) x step
    (f + BitVec.ofNat 16 m * vibratoDelta v step - vibratoDelta v step) m fun j hj => .inr (by omega)
  rw [vibratoDelta_congr (show (v + 2 * m) % 2 = v % 2 by omega)] at hturned
  rw [vibratoDelta_neg (show (257 - (v + 2 * m)) % 2 ≠ v % 2 by omega)] at hback
  rw [show 2 * m + 1 = m + (m + 1) by omega, Function.iterate_add_apply, Function.iterate_succ_apply', hout, hturned,
    hback, show 257 - (v + 2 * m) + 2 * m = 257 - v by omega]
  congr 1
  ring

end

/-- Settles O41: up to 125 two half cycles, from phase 0 and from phase 1, whose left-over steps cancel; at 126 and 127
every step is straight, since the even phases below 128 end at 126. -/
theorem vibratoCycle : Obligations.VibratoCycle := by
  intro x cmp step hphase hcmp
  have hstart := eq_vibratedTo_zero hphase
  split_ifs with hcycle
  · have hfirst := vibrateBy_half_cycle (cmp := cmp) (v := 0) (m := cmp.toNat / 2 + 1) x step x.freq
      (by omega) (by omega) (by omega) (by bv_omega)
    have hsecond := vibrateBy_half_cycle (cmp := cmp) (v := 1) (m := (cmp.toNat + 1) / 2) x step (x.freq - step)
      (by omega) (by omega) (by omega) (by bv_omega)
    have hfrom : x.vibratedTo 257 (x.freq - step) = x.vibratedTo 1 (x.freq - step) := (vibratedTo_mod ..).symm
    have hback : x.freq - step - vibratoDelta 1 step = x.freq := by
      rw [vibratoDelta, if_pos rfl, sub_neg_eq_add, sub_add_cancel]
    calc (vibrateBy (cmp, step))^[2 * cmp.toNat + 4] x
        = (vibrateBy (cmp, step))^[2 * ((cmp.toNat + 1) / 2) + 1]
            ((vibrateBy (cmp, step))^[2 * (cmp.toNat / 2 + 1) + 1] (x.vibratedTo 0 x.freq)) := by
          rw [← Function.iterate_add_apply, ← hstart]; congr 1; omega
      _ = (vibrateBy (cmp, step))^[2 * ((cmp.toNat + 1) / 2) + 1] (x.vibratedTo 1 (x.freq - step)) := by
          rw [hfirst]; exact congrArg _ hfrom
      _ = x.vibratedTo 256 x.freq := by rw [hsecond, hback]
      _ = x := (vibratedTo_mod ..).symm.trans hstart.symm
  · have hdrift := vibrateBy_iterate_straight (cmp := cmp) (v := 0) x step x.freq 128 fun j hj => by bv_omega
    calc (vibrateBy (cmp, step))^[128] x
        = x.vibratedTo 256 (x.freq + 128#16 * step) := (congrArg _ hstart).trans hdrift
      _ = { x with freq := x.freq + 128#16 * step } :=
        (vibratedTo_mod ..).symm.trans
          (congrArg (fun w => { x with vibtime := w, freq := x.freq + 128#16 * step }) hphase.symm)

end Sys2Proof.Machine
end

section
/-! SUPPORT. The effects of the latched command on a tick (R265, R266). -/

namespace Sys2Proof.Machine

/-! ## The phase, by what it fetches -/

section
variable {s : State}

theorem fetch_tickNEffects (h : s.phase = .tickNEffects) : fetch s = fetchEffect s := by
  cases s; cases h; rfl

/-- A channel whose latched command reads no speed entry. -/
theorem effects_of_nothing (h : s.phase = .tickNEffects) (hf : fetchEffect s = .nothing) :
    microStep s = (s.setCh s.chan (effectsWithoutEntry s.freqRom (s.ch s.chan))).goto .pulseExec := by
  rw [microStep_of_nothing (by simp [h]) ((fetch_tickNEffects h).trans hf), advance, h]
  rfl

/-- A channel whose latched command reads the speed entry at `p`. -/
theorem effects_of_entry {f : Format} {p : Byte} {i : Instr} (h : s.phase = .tickNEffects) (hp : p ≠ 0x00#8)
    (hf : fetchEffect s = fetchEntry .speed f p s) (hd : decode f [s.left .speed p, s.right .speed p] = .ok i) :
    microStep s = (perform i s).goto .pulseExec := by
  have hword : fetchEntry .speed f p s = .word f [s.left .speed p, s.right .speed p] := if_neg hp
  have hbefore : beforeExec s = s := by rw [beforeExec, h]
  rw [microStep_of_word (by simp [h]) ((fetch_tickNEffects h).trans (hf.trans hword)) hd, hbefore, h]
  rfl

/-- The entry at `p` read as a slide. -/
theorem effects_of_slide {p : Byte} (h : s.phase = .tickNEffects) (hp : p ≠ 0x00#8)
    (hf : fetchEffect s = fetchEntry .speed .slide p s) :
    let x := s.ch s.chan
    let step := slideStep s.chan p s
    microStep s =
      (s.setCh s.chan
        (if x.command = 1#4 then slideUp step x
         else if x.command = 2#4 then slideDown step x
         else if x.command = 3#4 then approachTarget s.freqRom step x
         else x)).goto .pulseExec := by
  dsimp only
  rw [effects_of_entry h hp hf rfl, slideStep_of_entry hp rfl rfl]
  rfl

/-- The entry at `p` read for vibrato. -/
theorem effects_of_vibrato {p : Byte} (h : s.phase = .tickNEffects) (hp : p ≠ 0x00#8)
    (hf : fetchEffect s = fetchEntry .speed .vibrato p s) :
    microStep s = (s.setCh s.chan ((vibrato s.chan p s).ch s.chan)).goto .pulseExec := by
  rw [effects_of_entry h hp hf rfl, vibrato_of_entry hp rfl rfl]
  rfl

end

/-! ## The phase, by the latched command -/

section
variable {s : State}

/-- The instrument's own vibrato (R265): it waits while its delay is above 1, and runs at 1. -/
theorem effects_of_instrument (h : s.phase = .tickNEffects) (hc : (s.ch s.chan).command = 0#4) :
    let x := s.ch s.chan
    microStep s =
      (s.setCh s.chan
        (if x.cmddata = 0x00#8 ∨ x.vibdelay = 0x00#8 then x
         else if x.vibdelay = 1#8 then (vibrato s.chan x.cmddata s).ch s.chan
         else { x with vibdelay := x.vibdelay - 1#8 })).goto .pulseExec := by
  intro x
  have hfetch : fetchEffect s = if instrVibratoRuns x then fetchEntry .speed .vibrato x.cmddata s else .nothing :=
    if_pos hc
  have hruns : instrVibratoRuns x = true ↔ x.cmddata ≠ 0x00#8 ∧ x.vibdelay = 1#8 := by simp [instrVibratoRuns]
  by_cases hrun : x.cmddata ≠ 0x00#8 ∧ x.vibdelay = 1#8
  · obtain ⟨hp, hdelay⟩ := hrun
    rw [if_neg (by simp [hp, hdelay]), if_pos hdelay]
    exact effects_of_vibrato h hp (hfetch.trans (if_pos (hruns.mpr ⟨hp, hdelay⟩)))
  · have hwaits : (x.cmddata != 0x00#8 && decide (1#8 < x.vibdelay)) = true ↔
        ¬ (x.cmddata = 0x00#8 ∨ x.vibdelay = 0x00#8) := by
      rw [Bool.and_eq_true, bne_iff_ne, decide_eq_true_iff]
      bv_omega
    rw [effects_of_nothing h (hfetch.trans (if_neg (mt hruns.mp hrun))), effectsWithoutEntry, if_pos hc]
    by_cases hidle : x.cmddata = 0x00#8 ∨ x.vibdelay = 0x00#8
    · rw [if_pos hidle, if_neg fun hw => hwaits.mp hw hidle]
    · rw [if_neg hidle, if_pos (hwaits.mpr hidle), if_neg fun hd => hrun ⟨fun hp => hidle (.inl hp), hd⟩]

/-- Without an entry only the instrument's vibrato, tone-portamento and vibrato have an effect. -/
theorem effectsWithoutEntry_eq_self {x : Channel} (h0 : x.command ≠ 0#4) (h3 : x.command ≠ 3#4)
    (h4 : x.command ≠ 4#4) (rom : Vector Word 96) : effectsWithoutEntry rom x = x := by
  rw [effectsWithoutEntry, if_neg h0, if_neg h3, if_neg h4]

/-- The commands that slide read their entry as a slide. -/
theorem fetchEffect_of_slide
    (hc : (s.ch s.chan).command = 1#4 ∨ (s.ch s.chan).command = 2#4 ∨ (s.ch s.chan).command = 3#4) :
    fetchEffect s = fetchEntry .speed .slide (s.ch s.chan).cmddata s := by
  unfold fetchEffect State.cur
  rcases hc with hc | hc | hc <;> simp [hc]

theorem slide_by_zero (x : Channel) : slideUp 0#16 x = x ∧ slideDown 0#16 x = x := by
  rw [slideUp, slideDown, BitVec.add_zero, BitVec.sub_zero]
  exact ⟨rfl, rfl⟩

/-- Portamento up or down (R262): address 0 has no entry, and its step is 0. -/
theorem effects_of_portamento (h : s.phase = .tickNEffects)
    (hc : (s.ch s.chan).command = 1#4 ∨ (s.ch s.chan).command = 2#4) :
    let x := s.ch s.chan
    let step := slideStep s.chan x.cmddata s
    microStep s =
      (s.setCh s.chan (if x.command = 1#4 then slideUp step x else slideDown step x)).goto .pulseExec := by
  intro x step
  have hfetch : fetchEffect s = fetchEntry .speed .slide x.cmddata s :=
    fetchEffect_of_slide (hc.imp_right .inl)
  by_cases hp : x.cmddata = 0x00#8
  · have hstep : step = 0#16 := if_pos hp
    obtain ⟨hup, hdown⟩ := slide_by_zero x
    have hnone : effectsWithoutEntry s.freqRom x = x := by
      rcases hc with hc | hc <;>
        exact effectsWithoutEntry_eq_self (by simp [x, hc]) (by simp [x, hc]) (by simp [x, hc]) _
    rw [effects_of_nothing h (hfetch.trans (if_pos hp)), hstep, hup, hdown, ite_self, hnone]
  · rw [effects_of_slide h hp hfetch]
    rcases hc with hc | hc <;> simp [x, step, hc]

/-- Tone-portamento (R263): address 0 ties to the target. -/
theorem effects_of_tonePorta (h : s.phase = .tickNEffects) (hc : (s.ch s.chan).command = 3#4) :
    microStep s =
      (s.setCh s.chan ((tonePorta s.chan (s.ch s.chan).cmddata s).ch s.chan)).goto .pulseExec := by
  have hfetch := fetchEffect_of_slide (s := s) (.inr (.inr hc))
  by_cases hp : (s.ch s.chan).cmddata = 0x00#8
  · rw [effects_of_nothing h (hfetch.trans (if_pos hp)), tonePorta, if_pos hp, modCh_ch_self]
    simp [effectsWithoutEntry, hc]
  · rw [effects_of_slide h hp hfetch, tonePorta_of_ne_zero hp]
    simp [hc]

/-- Vibrato (R264): address 0 compares with 0 and steps by 0. -/
theorem effects_of_latched_vibrato (h : s.phase = .tickNEffects) (hc : (s.ch s.chan).command = 4#4) :
    microStep s = (s.setCh s.chan ((vibrato s.chan (s.ch s.chan).cmddata s).ch s.chan)).goto .pulseExec := by
  have hfetch : fetchEffect s = fetchEntry .speed .vibrato (s.ch s.chan).cmddata s := by
    simp [fetchEffect, State.cur, hc]
  by_cases hp : (s.ch s.chan).cmddata = 0x00#8
  · rw [effects_of_nothing h (hfetch.trans (if_pos hp)), vibrato, modCh_ch_self, vibOperand, if_pos hp]
    simp [effectsWithoutEntry, hc]
  · exact effects_of_vibrato h hp hfetch

/-- A value that no command latches has no effect (assumption log 17). -/
theorem effects_of_unlatched (h : s.phase = .tickNEffects) (h0 : (s.ch s.chan).command ≠ 0#4)
    (h1 : (s.ch s.chan).command ≠ 1#4) (h2 : (s.ch s.chan).command ≠ 2#4) (h3 : (s.ch s.chan).command ≠ 3#4)
    (h4 : (s.ch s.chan).command ≠ 4#4) :
    microStep s = (s.setCh s.chan (s.ch s.chan)).goto .pulseExec := by
  have hfetch : fetchEffect s = .nothing := by simp [fetchEffect, State.cur, h0, h1, h2, h3, h4]
  rw [effects_of_nothing h hfetch, effectsWithoutEntry_eq_self h0 h3 h4]

/-- New registers for the channel being stepped, and a transfer to a phase, are framed by that channel. -/
theorem setCh_goto_onlyChannel (s : State) (y : Channel) (p : Phase) :
    OnlyChannel s ((s.setCh s.chan y).goto p) :=
  (modCur_onlyChannel (fun _ => y) s).1.trans (goto_onlyChannel ..)

end

/-- Settles O42, by the latched command. -/
theorem latchedCommandEffects : Obligations.LatchedCommandEffects := by
  intro s hphase hreset x p
  have hstep : step s = .next (microStep s) := step_inside_tick hreset (by simp [hphase])
  have outcome {y z : Channel} (hy : microStep s = (s.setCh s.chan y).goto .pulseExec) (hz : y = z) :
      ∃ t, step s = .next t ∧ OnlyChannel s t ∧ t.phase = .pulseExec ∧ t.ch s.chan = z :=
    ⟨_, hstep.trans (congrArg _ hy), setCh_goto_onlyChannel .., rfl, by rw [goto_ch, setCh_ch_self, hz]⟩
  by_cases h0 : x.command = 0#4
  · exact outcome (effects_of_instrument hphase h0) (if_pos h0).symm
  rw [if_neg h0]
  by_cases h1 : x.command = 1#4
  · exact outcome (effects_of_portamento hphase (.inl h1)) (by rw [if_pos h1, if_pos h1]; rfl)
  rw [if_neg h1]
  by_cases h2 : x.command = 2#4
  · exact outcome (effects_of_portamento hphase (.inr h2)) (by rw [if_neg h1, if_pos h2]; rfl)
  rw [if_neg h2]
  by_cases h3 : x.command = 3#4
  · exact outcome (effects_of_tonePorta hphase h3) (if_pos h3).symm
  rw [if_neg h3]
  by_cases h4 : x.command = 4#4
  · exact outcome (effects_of_latched_vibrato hphase h4) (if_pos h4).symm
  · exact outcome (effects_of_unlatched hphase h0 h1 h2 h3 h4) (if_neg h4).symm

end Sys2Proof.Machine
end

section
/-! SUPPORT. The entries of the pulse table (R280 to R283), and the modulations of the pulse and filter walkers tick by
tick (R282, R294). -/

namespace Sys2Proof.Machine

/-! ## A modulation -/

/-- What a walker modulates (R280, R290): its accumulator, its counter and its cursor. -/
abbrev Modulation (w : Nat) := BitVec w × Byte × Byte

/-- A modulation step by `d`: the cursor advances as the counter reaches 0. -/
def Modulation.stepped {w : Nat} (d : BitVec w) : Modulation w → Modulation w
  | (value, time, ptr) => (value + d, time - 1#8, if time = 1#8 then ptr + 1#8 else ptr)

/-- A tick of a modulation entry of `n` ticks: the counter is loaded where the entry is reached, with the counter at 0,
and the step is made on that same tick. -/
def Modulation.tick {w : Nat} (n : BitVec 7) (d : BitVec w) : Modulation w → Modulation w
  | (value, time, ptr) => Modulation.stepped d (value, if time = 0x00#8 then n.setWidth 8 else time, ptr)

/-- A modulation of `n` ticks, reached with the counter at 0, after `k` of them. -/
def modulationAfter {w : Nat} (n : BitVec 7) (d : BitVec w) (k : Nat) (value : BitVec w) (ptr : Byte) : Modulation w :=
  (value + BitVec.ofNat w k * d, BitVec.ofNat 8 (n.toNat - k), if k = n.toNat then ptr + 1#8 else ptr)

section
variable {w : Nat} {n : BitVec 7} {d : BitVec w} {value : BitVec w} {time ptr : Byte} {k : Nat}

/-- A counter that counts down to 0 stands at 1. -/
theorem counter_ends_iff (time : Byte) : time - 1#8 = 0x00#8 ↔ time = 1#8 := sub_eq_zero

/-- The counter of a modulation entry is not 0 when it is loaded. -/
theorem loaded_ne_zero (hn : n ≠ 0#7) : n.setWidth 8 ≠ 0x00#8 := by bv_omega

/-- An entry that has a tick `k` is no hold entry. -/
theorem ne_zero_of_tick (hfirst : 1 ≤ k) (hlast : k ≤ n.toNat) : n ≠ 0#7 := by
  rintro rfl
  exact absurd (hfirst.trans hlast) (by decide)

theorem Modulation.stepped_mk :
    stepped d (value, time, ptr) = (value + d, time - 1#8, if time = 1#8 then ptr + 1#8 else ptr) := rfl

theorem Modulation.tick_of_zero : Modulation.tick n d (value, 0x00#8, ptr) = stepped d (value, n.setWidth 8, ptr) := rfl

theorem Modulation.tick_of_ne_zero (h : time ≠ 0x00#8) :
    Modulation.tick n d (value, time, ptr) = stepped d (value, time, ptr) :=
  congrArg (fun loaded => stepped d (value, loaded, ptr)) (if_neg h)

/-- Before tick `n` the cursor has not advanced. -/
theorem modulationAfter_of_lt (hk : k < n.toNat) :
    modulationAfter n d k value ptr = (value + BitVec.ofNat w k * d, BitVec.ofNat 8 (n.toNat - k), ptr) :=
  congrArg (fun cursor => (value + BitVec.ofNat w k * d, BitVec.ofNat 8 (n.toNat - k), cursor)) (if_neg hk.ne)

/-- The ticks a modulation has left fit its counter. -/
theorem ticksLeft_eq_iff {j : Nat} (hj : j < 256) :
    BitVec.ofNat 8 (n.toNat - k) = BitVec.ofNat 8 j ↔ n.toNat - k = j := by
  have hn := n.isLt
  rw [← BitVec.toNat_inj, BitVec.toNat_ofNat, BitVec.toNat_ofNat]
  omega

theorem modulationAfter_zero (hn : 0 < n.toNat) : modulationAfter n d 0 value ptr = (value, n.setWidth 8, ptr) := by
  rw [modulationAfter_of_lt hn, BitVec.zero_mul, BitVec.add_zero, Nat.sub_zero, BitVec.ofNat_toNat]

theorem stepped_modulationAfter (hk : k < n.toNat) :
    (modulationAfter n d k value ptr).stepped d = modulationAfter n d (k + 1) value ptr := by
  have hvalue : value + BitVec.ofNat w k * d + d = value + BitVec.ofNat w (k + 1) * d := by
    rw [BitVec.ofNat_add, BitVec.add_mul, BitVec.one_mul, BitVec.add_assoc]
  have htime : BitVec.ofNat 8 (n.toNat - k) - 1#8 = BitVec.ofNat 8 (n.toNat - (k + 1)) :=
    BitVec.ofNat_sub_ofNat_of_le _ _ (by decide) (Nat.sub_pos_of_lt hk)
  have hlast : BitVec.ofNat 8 (n.toNat - k) = 1#8 ↔ k + 1 = n.toNat :=
    (ticksLeft_eq_iff (by decide)).trans (by omega)
  rw [modulationAfter_of_lt hk, Modulation.stepped_mk, hvalue, htime, if_congr hlast rfl rfl]
  rfl

/-- Before tick `n` the counter is not 0, so it is not loaded again. -/
theorem tick_modulationAfter (hk : k < n.toNat) :
    (modulationAfter n d k value ptr).tick n d = (modulationAfter n d k value ptr).stepped d := by
  have htime : BitVec.ofNat 8 (n.toNat - k) ≠ 0x00#8 :=
    (ticksLeft_eq_iff (by decide)).not.mpr (Nat.sub_ne_zero_of_lt hk)
  exact Modulation.tick_of_ne_zero htime

theorem Modulation.iterate_tick (hk : k < n.toNat) :
    (Modulation.tick n d)^[k + 1] (value, 0x00#8, ptr) = modulationAfter n d (k + 1) value ptr := by
  induction k with
  | zero =>
    have hloaded : modulationAfter n d 0 value ptr = (value, n.setWidth 8, ptr) := modulationAfter_zero hk
    exact tick_of_zero.trans (hloaded ▸ stepped_modulationAfter hk)
  | succ k ih =>
    rw [Function.iterate_succ_apply', ih (by omega), tick_modulationAfter hk, stepped_modulationAfter hk]

/-- An instruction that makes one tick of a modulation wherever it is executed makes `k + 1` of them in as many runs. -/
theorem exec_iterate_modulation {i : Instr} {s : State} {m : Modulation w} {put : Modulation w → State}
    (hfirst : exec i s = .next (put (m.tick n d))) (hnext : ∀ m', exec i (put m') = .next (put (m'.tick n d)))
    (k : Nat) : exec i ((afterInstr i)^[k] s) = .next (put ((Modulation.tick n d)^[k + 1] m)) := by
  induction k with
  | zero => exact hfirst
  | succ k ih =>
    rw [Function.iterate_succ_apply', afterInstr, ih, settled_next, hnext, Function.iterate_succ_apply' _ (k + 1)]

end

/-! ## The entries of the pulse table (R280 to R283) -/

/-- A channel with the counter of a modulation entry of `n` ticks loaded. -/
def Channel.pulseLoaded (n : BitVec 7) (x : Channel) : Channel := { x with pulsetime := n.setWidth 8 }

section
variable (r : Byte) {x : Channel}

theorem pulseModulate_of_ne_zero (h : x.pulsetime ≠ 0x00#8) : pulseModulate r x = x.pulseStepped r := by
  rw [pulseModulate, if_neg h, Channel.pulseStepped, if_congr (counter_ends_iff _) rfl rfl]
  rfl

/-- The class of an entry counts only while no modulation runs. -/
theorem pulseEntry_eq (f : Channel → Channel) :
    pulseModulate r (pulseStart f x) = if x.pulsetime = 0x00#8 then pulseModulate r (f x) else x.pulseStepped r := by
  unfold pulseStart
  split_ifs with h
  · rfl
  · exact pulseModulate_of_ne_zero r h

/-- An entry that leaves the counter at 0 is not followed by a modulation step. -/
theorem pulseEntry_of_idle {f : Channel → Channel} (hf : x.pulsetime = 0x00#8 → (f x).pulsetime = 0x00#8) :
    pulseModulate r (pulseStart f x) = if x.pulsetime = 0x00#8 then f x else x.pulseStepped r := by
  rw [pulseEntry_eq]
  split_ifs with h
  · exact if_pos (hf h)
  · rfl

theorem pulseEntry_of_mod {n : BitVec 7} (hn : n ≠ 0#7) :
    pulseModulate r (pulseStart (Channel.pulseLoaded n) x) =
      Channel.pulseStepped r (if x.pulsetime = 0x00#8 then x.pulseLoaded n else x) := by
  rw [pulseEntry_eq, apply_ite (Channel.pulseStepped r)]
  exact if_congr Iff.rfl (pulseModulate_of_ne_zero r (loaded_ne_zero hn)) rfl

end

/-- A set entry's width as a number. -/
theorem pulseWidth_eq (hi : BitVec 4) (lo : Byte) :
    pulseWidth hi lo = BitVec.ofNat 12 (hi.toNat * 256 + lo.toNat) := by
  refine (ofNat_of_toNat ?_).symm
  rw [pulseWidth, BitVec.toNat_append, ← Nat.shiftLeft_add_eq_or_of_lt lo.isLt, Nat.shiftLeft_eq]

/-- The fetch condition does not depend on what the pulse walker writes (R156). -/
theorem afterPulse_modCur {s : State} {f : Channel → Channel} (hscore : (f s.cur).score = s.cur.score) :
    afterPulse (s.modCur f) = (s.modCur f).goto (phaseAfterPulse s) := by
  rw [afterPulse_eq, (modCur_sounds hscore).phaseAfterPulse_eq]

/-- A pulse entry updates the channel being stepped, and then the fetch condition is tested (R156). -/
theorem pulseEntry_spec {i : Instr} {s : State} {f : Channel → Channel} {y : Channel}
    (he : exec i s = .next (afterPulse (s.modCur f))) (hscore : (f s.cur).score = s.cur.score)
    (hf : f (s.ch s.chan) = y) :
    ∃ t, exec i s = .next t ∧ OnlyChannel s t ∧ t.phase = phaseAfterPulse s ∧ t.ch s.chan = y := by
  rw [afterPulse_modCur hscore] at he
  exact ⟨_, he, (modCur_onlyChannel f s).1.trans (goto_onlyChannel ..), rfl,
    (goto_ch ..).trans ((modCur_ch_self ..).trans hf)⟩

/-- Settles O44, class by class. -/
theorem pulseEntries : Obligations.PulseEntries := by
  intro s hi n r hn x
  have hheld (hzero : x.pulsetime = 0x00#8) : { x with pulsetime := 0x00#8 } = x := by rw [← hzero]
  refine ⟨pulseEntry_spec rfl (pulseEntry_score _ r rfl) ?_, pulseEntry_spec rfl (pulseEntry_score _ r rfl) ?_,
    pulseEntry_spec rfl (pulseEntry_score _ r rfl) ?_⟩
  · rw [← pulseWidth_eq]
    exact pulseEntry_of_idle r id
  · exact (pulseEntry_of_idle r fun _ => rfl).trans (ite_congr rfl hheld fun _ => rfl)
  · exact pulseEntry_of_mod r hn

/-! ## A modulation of the pulse walker (R282) -/

/-- The registers the pulse walker modulates. -/
def Channel.pulseModulation (x : Channel) : Modulation 12 := (x.pulse, x.pulsetime, x.pulsePtr)

theorem pulseModulation_of_zero {x : Channel} (h : x.pulsetime = 0x00#8) :
    x.pulseModulation = (x.pulse, 0x00#8, x.pulsePtr) :=
  congrArg (fun time => (x.pulse, time, x.pulsePtr)) h

/-- A channel with other values in those registers. -/
def Channel.withPulse : Modulation 12 → Channel → Channel
  | (value, time, ptr), x => { x with pulse := value, pulsetime := time, pulsePtr := ptr }

theorem pulseModulation_withPulse (m : Modulation 12) (x : Channel) : (x.withPulse m).pulseModulation = m := rfl

theorem withPulse_withPulse (m m' : Modulation 12) (x : Channel) : (x.withPulse m).withPulse m' = x.withPulse m' := rfl

/-- A state in which the pulse walker has left `m`, and the tick goes on. -/
def State.pulseLeft (m : Modulation 12) (s : State) : State :=
  (s.modCur (Channel.withPulse m)).goto (phaseAfterPulse s)

theorem pulseLeft_chan (m : Modulation 12) (s : State) : (s.pulseLeft m).chan = s.chan := modCur_chan ..

theorem pulseLeft_ch (m : Modulation 12) (s : State) :
    (s.pulseLeft m).ch s.chan = (s.ch s.chan).withPulse m := (goto_ch ..).trans (modCur_ch_self ..)

theorem modCur_goto (f : Channel → Channel) (p : Phase) (s : State) :
    (s.goto p).modCur f = (s.modCur f).goto p := by
  cases s with | mk => rename_i c _; cases c <;> rfl

/-- Only what the pulse walker left last counts. -/
theorem pulseLeft_pulseLeft (m m' : Modulation 12) (s : State) : (s.pulseLeft m).pulseLeft m' = s.pulseLeft m' := by
  have hphase : phaseAfterPulse (s.pulseLeft m) = phaseAfterPulse s :=
    ((modCur_sounds rfl).trans (goto_sounds _ _)).phaseAfterPulse_eq
  have hupdate : (s.modCur (Channel.withPulse m)).modCur (Channel.withPulse m') = s.modCur (Channel.withPulse m') :=
    (modCur_modCur ..).trans (modCur_congr (withPulse_withPulse m m' s.cur))
  have hmodCur : (s.pulseLeft m).modCur (Channel.withPulse m') = s.pulseLeft m' :=
    (modCur_goto ..).trans (congrArg (State.goto · (phaseAfterPulse s)) hupdate)
  calc (s.pulseLeft m).pulseLeft m'
      = (s.pulseLeft m').goto (phaseAfterPulse s) := congrArg₂ State.goto hmodCur hphase
    _ = s.pulseLeft m' := rfl

/-- What a modulation entry of the pulse table makes of a channel (R280). -/
def Channel.pulseModEntry (n : BitVec 7) (r : Byte) (x : Channel) : Channel :=
  pulseModulate r (pulseStart (Channel.pulseLoaded n) x)

theorem pulseModEntry_eq {n : BitVec 7} (hn : n ≠ 0#7) (r : Byte) (x : Channel) :
    x.pulseModEntry n r = x.withPulse (x.pulseModulation.tick n (r.signExtend 12)) := by
  refine (pulseEntry_of_mod r hn).trans ?_
  by_cases hzero : x.pulsetime = 0x00#8
  · rw [if_pos hzero, pulseModulation_of_zero hzero, Modulation.tick_of_zero]
    rfl
  · rw [if_neg hzero]
    exact congrArg (Channel.withPulse · x) (Modulation.tick_of_ne_zero hzero).symm

/-- A tick of a modulation entry of the pulse table. -/
theorem exec_pMod {n : BitVec 7} (hn : n ≠ 0#7) (r : Byte) (s : State) :
    exec (.pMod n r) s = .next (s.pulseLeft ((s.ch s.chan).pulseModulation.tick n (r.signExtend 12))) := by
  have hafter : afterPulse (s.modCur (Channel.pulseModEntry n r)) =
      (s.modCur (Channel.pulseModEntry n r)).goto (phaseAfterPulse s) :=
    afterPulse_modCur (pulseEntry_score s.cur r rfl)
  have hupdate : s.modCur (Channel.pulseModEntry n r) =
      s.modCur (Channel.withPulse ((s.ch s.chan).pulseModulation.tick n (r.signExtend 12))) :=
    modCur_congr (pulseModEntry_eq hn r s.cur)
  calc exec (.pMod n r) s
      = .next (afterPulse (s.modCur (Channel.pulseModEntry n r))) := rfl
    _ = .next (s.pulseLeft _) := congrArg Host.Outcome.next (hafter.trans (congrArg (State.goto · _) hupdate))

/-- The width after `k` steps, in whole numbers: the right byte is signed. -/
theorem pulse_add_steps (p : BitVec 12) (r : Byte) (k : Nat) :
    p + BitVec.ofNat 12 k * r.signExtend 12 = BitVec.ofInt 12 (p.toNat + k * r.toInt) := by
  rw [BitVec.ofInt_add, BitVec.ofInt_mul, BitVec.ofInt_natCast, BitVec.ofInt_natCast, BitVec.ofNat_toNat,
    BitVec.setWidth_eq]
  rfl

/-- Tick `k` of a pulse modulation of `n` ticks. -/
theorem exec_pMod_iterate {s : State} {n : BitVec 7} (r : Byte) {k : Nat}
    (hzero : (s.ch s.chan).pulsetime = 0x00#8) (hfirst : 1 ≤ k) (hlast : k ≤ n.toNat) :
    exec (.pMod n r) ((afterInstr (.pMod n r))^[k - 1] s) =
      .next (s.pulseLeft (modulationAfter n (r.signExtend 12) k (s.ch s.chan).pulse (s.ch s.chan).pulsePtr)) := by
  have hn := ne_zero_of_tick hfirst hlast
  have hnext (m : Modulation 12) :
      exec (.pMod n r) (s.pulseLeft m) = .next (s.pulseLeft (m.tick n (r.signExtend 12))) := by
    rw [exec_pMod hn, pulseLeft_chan, pulseLeft_ch, pulseLeft_pulseLeft, pulseModulation_withPulse]
  rw [exec_iterate_modulation (put := (State.pulseLeft · s)) (exec_pMod hn r s) hnext, pulseModulation_of_zero hzero,
    Modulation.iterate_tick (by omega), Nat.sub_add_cancel hfirst]

/-! ## A modulation of the filter walker (R294) -/

/-- The registers the filter walker modulates. -/
def State.filterModulation (s : State) : Modulation 8 := (s.filtCutoff, s.filtTime, s.filtPtr)

theorem filterModulation_of_zero {s : State} (h : s.filtTime = 0x00#8) :
    s.filterModulation = (s.filtCutoff, 0x00#8, s.filtPtr) :=
  congrArg (fun time => (s.filtCutoff, time, s.filtPtr)) h

/-- A state in which the filter walker has left `m`, and the tick goes on. -/
def State.filterLeft : Modulation 8 → State → State
  | (value, time, ptr), s => { s with filtCutoff := value, filtTime := time, filtPtr := ptr, phase := .sharedOut }

theorem filterModulate_of_ne_zero (r : Byte) {s : State} (h : s.filtTime ≠ 0x00#8) :
    (filterModulate r s).goto .sharedOut = s.filterLeft (s.filterModulation.stepped r) := by
  rw [filterModulate, if_neg h, if_congr (counter_ends_iff _) rfl rfl]
  rfl

/-- A tick of a modulation entry of the filter table. -/
theorem exec_fMod {n : BitVec 7} (hn : n ≠ 0#7) (r : Byte) (s : State) :
    exec (.fMod n r) s = .next (s.filterLeft (s.filterModulation.tick n r)) := by
  have hexec : exec (.fMod n r) s =
      .next ((filterModulate r (filterStart (fun t => { t with filtTime := n.setWidth 8 }) s)).goto .sharedOut) := rfl
  rw [hexec, filterStart]
  by_cases hzero : s.filtTime = 0x00#8
  · rw [if_pos hzero, filterModulate_of_ne_zero r (loaded_ne_zero hn), filterModulation_of_zero hzero,
      Modulation.tick_of_zero]
    rfl
  · rw [if_neg hzero, filterModulate_of_ne_zero r hzero]
    exact congrArg (fun m => Host.Outcome.next (s.filterLeft m)) (Modulation.tick_of_ne_zero hzero).symm

/-- The cutoff after `k` steps, in whole numbers: the right byte is not signed. -/
theorem cutoff_add_steps (c r : Byte) (k : Nat) :
    c + BitVec.ofNat 8 k * r = BitVec.ofNat 8 (c.toNat + k * r.toNat) := by
  rw [BitVec.ofNat_add, BitVec.ofNat_mul, BitVec.ofNat_toNat, BitVec.ofNat_toNat, BitVec.setWidth_eq,
    BitVec.setWidth_eq]

/-- Tick `k` of a filter modulation of `n` ticks. -/
theorem exec_fMod_iterate {s : State} {n : BitVec 7} (r : Byte) {k : Nat}
    (hzero : s.filtTime = 0x00#8) (hfirst : 1 ≤ k) (hlast : k ≤ n.toNat) :
    exec (.fMod n r) ((afterInstr (.fMod n r))^[k - 1] s) =
      .next (s.filterLeft (modulationAfter n r k s.filtCutoff s.filtPtr)) := by
  have hn := ne_zero_of_tick hfirst hlast
  rw [exec_iterate_modulation (put := (State.filterLeft · s)) (exec_fMod hn r s)
    fun m => exec_fMod hn r (s.filterLeft m), filterModulation_of_zero hzero,
    Modulation.iterate_tick (by omega), Nat.sub_add_cancel hfirst]

theorem filterLeft_onlyShared (m : Modulation 8) (s : State) : OnlyShared s (s.filterLeft m) :=
  ⟨⟨rfl, rfl⟩, fun c => by cases c <;> rfl, ⟨rfl, rfl, rfl, rfl⟩, fun _ _ => rfl, fun _ => rfl, rfl⟩

/-- Settles O45: the state after tick `k` is `exec_pMod_iterate`'s for the pulse walker, and `exec_fMod_iterate`'s for
the filter walker. -/
theorem modulationsOccupyTheirTicks : Obligations.ModulationsOccupyTheirTicks := by
  refine ⟨fun s n r k hzero hfirst hlast => ?_, fun s n r k hzero hfirst hlast => ?_⟩
  · refine ⟨_, exec_pMod_iterate r hzero hfirst hlast, setCh_goto_onlyChannel .., ?_⟩
    rw [← pulse_add_steps]
    exact pulseLeft_ch ..
  · refine ⟨_, exec_fMod_iterate r hzero hfirst hlast, filterLeft_onlyShared .., ?_⟩
    rw [← cutoff_add_steps]
    exact ⟨rfl, rfl, rfl, rfl, rfl, rfl, rfl, rfl⟩

end Sys2Proof.Machine
end

section
/-! SUPPORT. One tick of a cutoff, a modulation or a type entry of the filter table (R290, R292 to R294). -/

namespace Sys2Proof.Machine

section
variable (r : Byte) (s : State)

/-- An entry that leaves the counter alone takes effect where no modulation runs; while one runs, it is a modulation
step with its right byte (R290). -/
theorem filterEntry_of_idle {f : State → State} (hf : (f s).filtTime = s.filtTime) :
    (filterModulate r (filterStart f s)).goto .sharedOut =
      if s.filtTime = 0x00#8 then (f s).goto .sharedOut else s.filterLeft (s.filterModulation.stepped r) := by
  unfold filterStart
  split_ifs with hzero
  · rw [filterModulate, if_pos (hf.trans hzero)]
  · exact filterModulate_of_ne_zero r hzero

/-- A tick of a cutoff entry (R293). -/
theorem exec_fCut :
    exec (.fCut r) s = .next (s.filterLeft
      (if s.filtTime = 0x00#8 then (r, s.filtTime, s.filtPtr + 1#8) else s.filterModulation.stepped r)) := by
  rw [apply_ite (State.filterLeft · s)]
  exact congrArg Host.Outcome.next (filterEntry_of_idle (f := filterCut r) r s rfl)

end

theorem OnlyShared.trans {s t u : State} (h : OnlyShared s t) (k : OnlyShared t u) : OnlyShared s u := by
  obtain ⟨hplace, hchannels, hcontrol, himage, hcells⟩ := h
  obtain ⟨kplace, kchannels, kcontrol, kimage, kcells⟩ := k
  exact ⟨hplace.trans kplace, fun c => (kchannels c).trans (hchannels c), hcontrol.trans kcontrol,
    himage.trans kimage, hcells.trans kcells⟩

/-- A cutoff entry stands under the cursor, which has not wrapped to 0. -/
abbrev State.atCutoff (s : State) : Prop := s.filtPtr ≠ 0x00#8 ∧ s.left .filter s.filtPtr = 0x00#8

/-- The registers a type entry leaves to the next tick, once it has advanced to what follows it (R292). -/
def State.cutoffAbsorbed (s : State) : Modulation 8 :=
  (if s.atCutoff then s.right .filter s.filtPtr else s.filtCutoff, s.filtTime,
    if s.atCutoff then s.filtPtr + 1#8 else s.filtPtr)

theorem absorbCut_eq_ite (s : State) :
    absorbCut s = if s.atCutoff then filterCut (s.right .filter s.filtPtr) s else s := by
  refine if_congr ?_ rfl rfl
  rw [Bool.and_eq_true, bne_iff_ne, beq_iff_eq]

theorem absorbCut_filtTime (s : State) : (absorbCut s).filtTime = s.filtTime := by
  rw [absorbCut_eq_ite]
  split_ifs <;> rfl

theorem absorbCut_goto (s : State) : (absorbCut s).goto .sharedOut = s.filterLeft s.cutoffAbsorbed := by
  rw [absorbCut_eq_ite, State.cutoffAbsorbed]
  split_ifs <;> rfl

/-- A state with the type and the control byte of a type entry, and the cursor on what follows it. -/
def State.filterTyped (ty : BitVec 3) (ctl : Byte) (s : State) : State :=
  { s with filtType := filterTypeByte ty, filtCtrl := ctl, filtPtr := s.filtPtr + 1#8 }

theorem filterTyped_onlyShared (ty : BitVec 3) (ctl : Byte) (s : State) : OnlyShared s (s.filterTyped ty ctl) :=
  filterRegisters_onlyShared s (s.filtPtr + 1#8) (filterTypeByte ty) s.filtCutoff ctl s.fader

/-- A tick of a type entry, absorbing a cutoff entry that follows it (R292). -/
theorem exec_fType (ty : BitVec 3) (ctl : Byte) (s : State) :
    exec (.fType ty ctl) s = .next
      (if s.filtTime = 0x00#8 then (s.filterTyped ty ctl).filterLeft (s.filterTyped ty ctl).cutoffAbsorbed
      else s.filterLeft (s.filterModulation.stepped ctl)) := by
  have hentry := filterEntry_of_idle ctl s (f := fun t => absorbCut (t.filterTyped ty ctl)) (absorbCut_filtTime _)
  rw [absorbCut_goto] at hentry
  exact congrArg Host.Outcome.next hentry

/-- The type bits of a type entry as a number. -/
theorem filterTypeByte_eq (ty : BitVec 3) : filterTypeByte ty = BitVec.ofNat 8 (ty.toNat * 16) := by
  refine (ofNat_of_toNat ?_).symm
  have hty := ty.isLt
  rw [filterTypeByte, BitVec.toNat_shiftLeft, BitVec.toNat_setWidth, Nat.shiftLeft_eq]
  omega

/-- Settles O46: the state after a tick is `exec_fCut`'s, `exec_fMod`'s or `exec_fType`'s; each splits on whether a
modulation runs. -/
theorem filterEntries : Obligations.FilterEntries := by
  refine ⟨fun s n r hn => ⟨⟨_, exec_fCut r s, ?_⟩, ⟨_, exec_fMod hn r s, ?_⟩⟩, fun s ty r => ⟨_, exec_fType ty r s, ?_⟩⟩
  · refine ⟨⟨rfl, rfl, rfl, rfl, rfl, filterLeft_onlyShared .., rfl⟩, ?_⟩
    split_ifs with hzero
    · exact ⟨rfl, hzero, rfl⟩
    · exact ⟨rfl, rfl, rfl⟩
  · exact ⟨⟨rfl, rfl, rfl, rfl, rfl, filterLeft_onlyShared .., rfl⟩, rfl, rfl, rfl⟩
  · by_cases hzero : s.filtTime = 0x00#8
    · simp only [if_pos hzero]
      exact ⟨rfl, rfl, rfl, (filterTyped_onlyShared ty r s).trans (filterLeft_onlyShared ..), rfl,
        filterTypeByte_eq ty, rfl, hzero, rfl, rfl⟩
    · simp only [if_neg hzero]
      exact ⟨rfl, rfl, rfl, filterLeft_onlyShared .., rfl, rfl, rfl, rfl, rfl, rfl⟩

end Sys2Proof.Machine
end

section
/-! SUPPORT. The frequency lookup, and the image bytes that the two write-outs of a tick write (R300, R301, R305 to
R308). -/

namespace Sys2Proof.Machine

/-! ## The frequency lookup (R300, R301) -/

/-- Settles O37: the lookup is a read inside the ROM, and from 95 on always the same one. -/
theorem freqLookupClamps : Obligations.FreqLookupClamps := by
  refine ⟨fun rom i => ?_, fun rom i h => ?_, by decide, by decide⟩
  · rw [freqAt, Vector.getElem?_toList, Vector.getElem?_eq_getElem]
  · rw [freqAt_of_ge rom i (BitVec.le_def.mp h), freqAt_of_ge rom 95#8 (by decide)]

/-! ## Writes to the image -/

theorem setReg_regAt (s : State) (a b : Fin 25) (v : Byte) :
    (s.setReg a v).regAt b = if b = a then v else s.regAt b := by
  split_ifs with h
  · rw [h, setReg_regAt_self]
  · exact setReg_regAt_ne s a b v h

theorem OnlyImage.refl (l : List (Fin 25)) (s : State) : OnlyImage l s s :=
  ⟨⟨rfl, rfl⟩, fun _ => rfl, .refl s, ⟨rfl, rfl, rfl, rfl⟩, fun _ _ => rfl, fun _ => rfl, rfl⟩

theorem OnlyImage.setReg {l : List (Fin 25)} {s t : State} {a : Fin 25} (h : OnlyImage l s t) (ha : a ∈ l) (v : Byte) :
    OnlyImage l s (t.setReg a v) := by
  obtain ⟨hplace, hchannels, hshared, hcontrol, himage, hcells⟩ := h
  exact ⟨hplace, fun c => (setReg_ch t a v c).trans (hchannels c), hshared, hcontrol,
    fun b hb => (setReg_regAt_ne t a b v (ne_of_mem_of_not_mem ha hb).symm).trans (himage b hb), hcells⟩

/-! ## The shared write-out (R307) -/

/-- The four shared bytes of `t` show the filter and volume registers of `s`. -/
def ShowsShared (s t : State) : Prop :=
  t.regAt 0x15 = 0x00#8 ∧ t.regAt 0x16 = s.filtCutoff ∧ t.regAt 0x17 = s.filtCtrl ∧
  t.regAt 0x18 = s.filtType ||| (0x0#4 ++ s.fader)

/-- The bytes that `ShowsShared` reads. -/
abbrev sharedBytes : List (Fin 25) := [0x15, 0x16, 0x17, 0x18]

/-- The bytes of the channels lie below the shared ones (R77). -/
theorem regIdx_ne_of_mem_sharedBytes (c : Chan) (k : Fin 7) {a : Fin 25} (h : a ∈ sharedBytes) : regIdx c k ≠ a := by
  have hbyte : ∀ a ∈ sharedBytes, 21 ≤ a.val := by decide
  have hval : (regIdx c k).val = 7 * c.idx + k.val := rfl
  have hidx := idx_le_two c
  rintro rfl
  have := hbyte _ h
  omega

theorem ShowsShared.trans {s t u : State} (h : ShowsShared s t) (hkept : ∀ a ∈ sharedBytes, u.regAt a = t.regAt a) :
    ShowsShared s u := by
  obtain ⟨hzero, hcutoff, hctrl, htype⟩ := h
  exact ⟨(hkept _ (by decide)).trans hzero, (hkept _ (by decide)).trans hcutoff, (hkept _ (by decide)).trans hctrl,
    (hkept _ (by decide)).trans htype⟩

theorem writeShared_shows (s : State) : ShowsShared s (writeShared s) := by
  unfold ShowsShared writeShared
  simp only [setReg_regAt, zero_append_nibble]
  exact ⟨rfl, rfl, rfl, rfl⟩

theorem writeShared_onlyImage (s : State) : OnlyImage sharedBytes s (writeShared s) :=
  ((((OnlyImage.refl _ s).setReg (by simp) _).setReg (by simp) _).setReg (by simp) _).setReg (by simp) _

/-- Settles O47: the step is the shared write-out, which writes nothing but the image. -/
theorem sharedWriteOut : Obligations.SharedWriteOut := by
  intro s hp hr
  have hstep : step s = .next { writeShared s with chan := .c0, phase := .enter } := by
    rw [step_inside_tick hr (by simp [hp]), microStep_sharedOut hp]
  obtain ⟨hzero, hcutoff, hctrl, htype⟩ := writeShared_shows s
  obtain ⟨-, hchannels, hshared, hcontrol, himage, hcells⟩ := writeShared_onlyImage s
  generalize writeShared s = u at *
  exact ⟨_, hstep, hzero, hcutoff, hctrl, htype, himage, hchannels, hshared, hcontrol, hcells, rfl, rfl⟩

/-! ## The write-out of a channel (R305, R306) -/

/-- The first five image bytes of channel `c` in `t` show the registers `x` of a channel. -/
def ShowsChannel (x : Channel) (c : Chan) (t : State) : Prop :=
  (t.regAt (regIdx c 0)).toNat = x.freq.toNat % 256 ∧
  (t.regAt (regIdx c 1)).toNat = x.freq.toNat / 256 ∧
  (t.regAt (regIdx c 2)).toNat = x.pulse.toNat % 256 / 2 * 2 ∧
  (t.regAt (regIdx c 3)).toNat = x.pulse.toNat / 256 ∧
  t.regAt (regIdx c 4) = if x.mute = true then x.wave &&& 0x08#8 else x.wave &&& x.gate

/-- The registers of a channel that its write-out reads. -/
def Channel.output (x : Channel) : Word × BitVec 12 × Byte × Bool × Byte := (x.freq, x.pulse, x.wave, x.mute, x.gate)

/-- The bytes that `ShowsChannel` reads. -/
abbrev channelBytes (c : Chan) : List (Fin 25) := [regIdx c 0, regIdx c 1, regIdx c 2, regIdx c 3, regIdx c 4]

theorem mem_channelBytes_iff (c : Chan) (a : Fin 25) : a ∈ channelBytes c ↔ ∃ k : Fin 7, k ≤ 4 ∧ a = regIdx c k := by
  simp only [List.mem_cons, List.not_mem_nil, or_false]
  constructor
  · rintro (h | h | h | h | h) <;> exact ⟨_, by decide, h⟩
  · rintro ⟨k, hle, rfl⟩
    simp only [regIdx_inj]
    omega

theorem ShowsChannel.trans {x y : Channel} {c : Chan} {s t : State} (h : ShowsChannel x c s)
    (hout : y.output = x.output) (hkept : ∀ a ∈ channelBytes c, t.regAt a = s.regAt a) : ShowsChannel y c t := by
  simp only [Channel.output, Prod.mk.injEq] at hout
  obtain ⟨hfreq, hpulse, hwave, hmute, hgate⟩ := hout
  unfold ShowsChannel
  rw [hfreq, hpulse, hwave, hmute, hgate, hkept (regIdx c 0) (by simp), hkept (regIdx c 1) (by simp),
    hkept (regIdx c 2) (by simp), hkept (regIdx c 3) (by simp), hkept (regIdx c 4) (by simp)]
  exact h

theorem toNat_and_fe (b : Byte) : (b &&& 0xFE#8).toNat = b.toNat / 2 * 2 := by
  have hclear : b &&& 0xFE#8 = b >>> 1 <<< 1 := by
    ext i hi
    interval_cases i <;> simp
  rw [hclear, BitVec.toNat_shiftLeft, BitVec.toNat_ushiftRight, Nat.shiftLeft_eq, Nat.shiftRight_eq_div_pow]
  omega

/-- The byte above the lowest 8 bits. -/
theorem toNat_highByte {w : Nat} (x : BitVec w) (n : Nat) (h : w ≤ 8 + n) :
    (x.extractLsb' 8 n).toNat = x.toNat / 256 := by
  rw [BitVec.extractLsb'_toNat, Nat.shiftRight_eq_div_pow]
  refine Nat.mod_eq_of_lt (Nat.div_lt_of_lt_mul ?_)
  rw [← Nat.pow_add]
  exact lt_of_lt_of_le x.isLt (Nat.pow_le_pow_right (by decide) h)

theorem writeChannel_shows (c : Chan) (s : State) : ShowsChannel (s.ch c) c (writeChannel c s) := by
  unfold ShowsChannel writeChannel
  simp only [setReg_regAt, regIdx_inj, Fin.reduceEq, if_false, if_true]
  exact ⟨BitVec.toNat_setWidth .., toNat_highByte _ 8 (by decide),
    (toNat_and_fe _).trans (by rw [BitVec.toNat_setWidth]),
    (BitVec.toNat_setWidth_of_le (by decide)).trans (toNat_highByte _ 4 (by decide)), rfl⟩

theorem writeChannel_onlyImage (c : Chan) (s : State) : OnlyImage (channelBytes c) s (writeChannel c s) :=
  (((((OnlyImage.refl _ s).setReg (by simp) _).setReg (by simp) _).setReg (by simp) _).setReg (by simp) _).setReg
    (by simp) _

/-- Settles O48: the step is the write-out of the channel being stepped, which writes nothing but the image. -/
theorem channelWriteOut : Obligations.ChannelWriteOut := by
  intro s hp hr x
  have hstep : step s = .next (nextChannel s) := by rw [step_inside_tick hr (by simp [hp]), microStep_nextChannel hp]
  obtain ⟨hfreqLow, hfreqHigh, hpulseLow, hpulseHigh, hwave⟩ := writeChannel_shows s.chan s
  obtain ⟨⟨-, hrequests⟩, hchannels, hshared, hcontrol, himage, hcells⟩ := writeChannel_onlyImage s.chan s
  rw [nextChannel_eq] at hstep
  generalize writeChannel s.chan s = u at *
  exact ⟨_, hstep, hfreqLow, hfreqHigh, hpulseLow, hpulseHigh, hwave, himage, hchannels, hshared, hcontrol, hcells,
    hrequests, rfl, by cases s.chan <;> rfl⟩

end Sys2Proof.Machine
end

section
/-! SUPPORT. What the phases of a channel's step write of the image and of the other channels (R308), one lemma per
operation of the model. -/

namespace Sys2Proof.Machine

/-! ## The relation between the states before and after a change -/

/-- A change that writes of the image at most the bytes `7c + k` of the channel being stepped with `w k`, and nothing
that the write-out of another channel reads. -/
def WritesOwn (w : Fin 7 → Prop) (s t : State) : Prop :=
  t.chan = s.chan ∧ (∀ a, (∀ k, w k → a ≠ regIdx s.chan k) → t.regAt a = s.regAt a) ∧
  ∀ c, c ≠ s.chan → (t.ch c).output = (s.ch c).output

section
variable {w : Fin 7 → Prop} {s t u : State}

theorem WritesOwn.trans (h : WritesOwn w s t) (k : WritesOwn w t u) : WritesOwn w s u := by
  obtain ⟨hchan, himage, hothers⟩ := h
  obtain ⟨kchan, kimage, kothers⟩ := k
  rw [hchan] at kchan kimage kothers
  exact ⟨kchan, fun a ha => (kimage a ha).trans (himage a ha), fun c hc => (kothers c hc).trans (hothers c hc)⟩

theorem WritesOwn.imp {v : Fin 7 → Prop} (h : WritesOwn v s t) (hvw : ∀ k, v k → w k) : WritesOwn w s t := by
  obtain ⟨hchan, himage, hothers⟩ := h
  exact ⟨hchan, fun a ha => himage a fun k hk => ha k (hvw k hk), hothers⟩

/-- A change of shared registers and of the phase. -/
theorem WritesOwn.of_unshared (h : t.unshared = s.unshared) : WritesOwn w s t := by
  have hch : ∀ (v : State) c, v.unshared.ch c = v.ch c := fun v c => by cases c <;> rfl
  have hchan : t.unshared.chan = s.unshared.chan := by rw [h]
  have hreg : t.unshared.reg = s.unshared.reg := by rw [h]
  exact ⟨hchan, fun a _ => sameImage_of_reg hreg a List.not_mem_nil,
    fun c _ => by rw [← hch t, h, hch]⟩

theorem WritesOwn.refl (w : Fin 7 → Prop) (s : State) : WritesOwn w s s := .of_unshared rfl

theorem WritesOwn.ite {q : Prop} [Decidable q] (ht : WritesOwn w s t) (hu : WritesOwn w s u) :
    WritesOwn w s (if q then t else u) := by
  split_ifs
  · exact ht
  · exact hu

/-- A change that is framed by the channel being stepped and the raise of a cause. -/
theorem WritesOwn.of_onlyChannelOrRaise {b : Bool} {k : Cause} (h : OnlyChannelOrRaise b k s t) : WritesOwn w s t := by
  obtain ⟨⟨hchan, -⟩, hothers, -, -, himage, -⟩ := h
  exact ⟨hchan, fun a _ => himage a List.not_mem_nil, fun c hc => congrArg Channel.output (hothers c hc)⟩

theorem WritesOwn.of_onlyChannel (h : OnlyChannel s t) : WritesOwn w s t :=
  .of_onlyChannelOrRaise (h.raise false .illegalPattern)

/-- A change that is framed by the channel being stepped and its two envelope bytes, and that may write the shared
registers. -/
theorem WritesOwn.of_envelope (hplace : SamePlace s t) (hothers : SameOthers s.chan s t)
    (himage : SameImageBut [regIdx s.chan 5, regIdx s.chan 6] s t) : WritesOwn (fun k => k = 5 ∨ k = 6) s t := by
  refine ⟨hplace.1, fun a ha => himage a ?_, fun c hc => congrArg Channel.output (hothers c hc)⟩
  simp only [List.mem_cons, List.not_mem_nil, or_false, not_or]
  exact ⟨ha 5 (.inl rfl), ha 6 (.inr rfl)⟩

end

/-! ## The shared operations -/

section
variable (w : Fin 7 → Prop) (s : State)

theorem goto_writesOwn (p : Phase) : WritesOwn w s (s.goto p) := .of_unshared rfl

theorem modCur_writesOwn (f : Channel → Channel) : WritesOwn w s (s.modCur f) :=
  .of_onlyChannel (modCur_onlyChannel f s).1

/-- An instruction that is an update of the channel being stepped and nothing else. -/
theorem settled_modCur_writesOwn (f : Channel → Channel) : WritesOwn w s (settled s (.next (s.modCur f))) :=
  modCur_writesOwn w s f

theorem setReg_writesOwn (k : Fin 7) (v : Byte) :
    WritesOwn (fun j => some k = some j) s (s.setReg (regIdx s.chan k) v) :=
  ⟨rfl, fun a ha => setReg_regAt_ne s _ a v (ha k rfl), fun c _ => congrArg Channel.output (setReg_ch s _ v c)⟩

theorem raiseFatalIf_writesOwn (b : Bool) (k : Cause) : WritesOwn w s (raiseFatalIf b k s) :=
  .of_onlyChannelOrRaise ((OnlyChannel.refl s).raise b k)

theorem raiseFatal_writesOwn (k : Cause) : WritesOwn w s (raiseFatal k s) := raiseFatalIf_writesOwn w s true k

theorem loadWavePtr_writesOwn (p : Byte) : WritesOwn w s (loadWavePtr s.chan p s) :=
  .of_onlyChannelOrRaise (loadWavePtr_cur p s).2.1

theorem loadPulsePtr_writesOwn (p : Byte) : WritesOwn w s (loadPulsePtr s.chan p s) :=
  .of_onlyChannelOrRaise (loadPulsePtr_cur p s).2.1

theorem setFiltPtr_writesOwn (p q : Byte) : WritesOwn w s { s with filtPtr := p, filtTime := q } := .of_unshared rfl

theorem loadFilterPtr_writesOwn (p : Byte) : WritesOwn w s (loadFilterPtr p s) :=
  (setFiltPtr_writesOwn w s p 0x00#8).trans (raiseFatalIf_writesOwn _ _ _ _)

theorem setMasterVolume_writesOwn (d : Byte) : WritesOwn w s (setMasterVolume d s) := by
  rcases setMasterVolume_cases d s with ⟨_, h⟩ | ⟨_, h⟩ <;> rw [h] <;> exact .of_unshared rfl

/-- A write-out does not read the tempo (R305, R306). -/
theorem setAllTempos_writesOwn (v : Byte) : WritesOwn w s (setAllTempos v s) :=
  ⟨rfl, fun _ _ => rfl, fun c _ => by rw [setAllTempos_ch]; rfl⟩

theorem fnk_writesOwn (d : Byte) : WritesOwn w s (perform (.fnk d) s) :=
  WritesOwn.trans (t := if d = 0x00#8 then s else { s with funk0 := s.left .speed d, funk1 := s.right .speed d })
    (.ite (.refl w s) (.of_unshared rfl)) (setAllTempos_writesOwn _ _ _)

/-! ## The walkers -/

theorem applyNote_writesOwn (n : BitVec 7) : WritesOwn w s (applyNote n s) :=
  (modCur_writesOwn w s _).trans (goto_writesOwn _ _ _)

/-- A passed entry and its note adjustment (R236, R238). -/
theorem wavePass_writesOwn (r : Byte) : WritesOwn w s (noteAdjust r (waveAdvance s)) := by
  have hadvance : WritesOwn w s (waveAdvance s) := modCur_writesOwn w s _
  refine hadvance.trans ?_
  rcases noteAdjust_cases r (waveAdvance s) with ⟨_, h⟩ | ⟨_, h⟩ | ⟨_, h⟩ <;> rw [h]
  · exact goto_writesOwn _ _ _
  · exact applyNote_writesOwn _ _ _
  · exact applyNote_writesOwn _ _ _

theorem wavePassCommand_writesOwn : WritesOwn w s (wavePassCommand s) :=
  .of_onlyChannel (wavePassCommand_spec s).2.1

theorem tonePorta_writesOwn (q : Byte) : WritesOwn w s (tonePorta s.chan q s) := by
  unfold tonePorta
  split_ifs
  · exact modCur_writesOwn w s _
  · exact modCur_writesOwn w s _

theorem afterPulse_writesOwn : WritesOwn w s (afterPulse s) := goto_writesOwn w s _

theorem pJump_writesOwn (r : Byte) : WritesOwn w s (perform (.pJump r) s) :=
  ((modCur_writesOwn w s fun x => { x with pulsePtr := jumpTarget .pulse r s }).trans
    (raiseFatalIf_writesOwn _ _ _ _)).trans (.ite (afterPulse_writesOwn _ _) (goto_writesOwn _ _ _))

/-- A filter entry's own part, then its modulation step (R290). -/
theorem filterEntry_writesOwn (r : Byte) {f : State → State} (hf : WritesOwn w s (f s)) :
    WritesOwn w s ((filterModulate r (filterStart f s)).goto .sharedOut) := by
  have hstart : WritesOwn w s (filterStart f s) := .ite hf (.refl w s)
  refine (hstart.trans ?_).trans (goto_writesOwn _ _ _)
  rcases filterModulate_cases r (filterStart f s) with ⟨_, h⟩ | ⟨_, _, h⟩ | ⟨_, _, h⟩ <;> rw [h] <;>
    exact .of_unshared rfl

theorem fType_writesOwn (ty : BitVec 3) (ctl : Byte) : WritesOwn w s (perform (.fType ty ctl) s) := by
  have habsorb : ∀ t, WritesOwn w t (absorbCut t) := fun t => .ite (.of_unshared rfl) (.refl w t)
  exact filterEntry_writesOwn w s ctl (f := fun t => absorbCut (t.filterTyped ty ctl))
    (.trans (.of_unshared rfl) (habsorb _))

end

/-! ## The instructions -/

/-- The envelope byte that a command writes (R205, R206, R245, R246). -/
def envelopeByte : Instr → Option (Fin 7)
  | .sad _ | .wxSad _ => some 5
  | .ssr _ | .wxSsr _ => some 6
  | _ => none

/-- The commands and walkers write no image byte but the envelope byte that `SAD`, `SSR` and their embedded forms are
for. -/
theorem perform_writesOwn {i : Instr} {f : Format} (hi : i.format = some f) (hf : soundsOnly f = true) (s : State) :
    WritesOwn (fun k => envelopeByte i = some k) s (perform i s) := by
  cases i with
  | nop | pup | pdn | tpo | vib | swv | sSlide | sVib => exact settled_modCur_writesOwn _ s _
  | sad | ssr => exact setReg_writesOwn s _ _
  | swp => exact loadWavePtr_writesOwn _ s _
  | spp => exact loadPulsePtr_writesOwn _ s _
  | sfp => exact loadFilterPtr_writesOwn _ s _
  | sfc | sco | sFunk => exact .of_unshared rfl
  | smv => exact setMasterVolume_writesOwn _ s _
  | fnk d => exact fnk_writesOwn _ s d
  | tmp => exact .ite (modCur_writesOwn _ s _) (setAllTempos_writesOwn _ s _)
  | wKeep r => exact wavePass_writesOwn _ s r
  | wDelay _ r => exact .ite (wavePass_writesOwn _ s r) ((modCur_writesOwn _ s _).trans (goto_writesOwn _ _ _))
  | wWave _ r | wMute _ r => exact (modCur_writesOwn _ s _).trans (wavePass_writesOwn _ _ r)
  | wxNop | wxSwp | wxFnk => exact (raiseFatal_writesOwn _ s _).trans (wavePassCommand_writesOwn _ _)
  | wxPup | wxPdn | wxSwv | wxVib => exact (modCur_writesOwn _ s _).trans (wavePassCommand_writesOwn _ _)
  | wxTpo => exact (tonePorta_writesOwn _ s _).trans (wavePassCommand_writesOwn _ _)
  | wxSad | wxSsr => exact (setReg_writesOwn s _ _).trans (wavePassCommand_writesOwn _ _)
  | wxSpp => exact (loadPulsePtr_writesOwn _ s _).trans (wavePassCommand_writesOwn _ _)
  | wxSfp => exact (loadFilterPtr_writesOwn _ s _).trans (wavePassCommand_writesOwn _ _)
  | wxSfc r =>
    exact WritesOwn.trans (t := setFilterControl r s) (.of_unshared rfl) (wavePassCommand_writesOwn _ _)
  | wxSco r =>
    exact WritesOwn.trans (t := { s with filtCutoff := r }) (.of_unshared rfl) (wavePassCommand_writesOwn _ _)
  | wxSmv => exact (setMasterVolume_writesOwn _ s _).trans (wavePassCommand_writesOwn _ _)
  | wJump =>
    exact (modCur_writesOwn _ s _).trans ((raiseFatalIf_writesOwn _ _ _ _).trans (goto_writesOwn _ _ _))
  | pHold | pMod | pSet => exact (modCur_writesOwn _ s _).trans (afterPulse_writesOwn _ _)
  | pJump r => exact pJump_writesOwn _ s r
  | fCut r | fMod _ r => exact filterEntry_writesOwn _ s r (.of_unshared rfl)
  | fType ty ctl => exact fType_writesOwn _ s ty ctl
  | fJump =>
    exact (setFiltPtr_writesOwn _ s _ _).trans ((raiseFatalIf_writesOwn _ _ _ _).trans (goto_writesOwn _ _ _))
  | naKeep => exact goto_writesOwn _ s _
  | naRel | naAbs => exact applyNote_writesOwn _ s _
  | nRest | nKoff | nKon | nNote | nNone | fwKeep | fwWave | fwGoff | fwGon | aNone | aStart | aPause | aStop =>
    cases hi; cases hf
  | hTick | hAction | hTestnote | hRelease | hActive | hSetstart | hSetloop => cases hi

/-! ## Which words write an envelope byte (R103, R109, R116) -/

theorem decodeCmd_envelopeByte (n : BitVec 4) (d : Byte) :
    envelopeByte (decodeCmd (n.setWidth 8) d) = if n = 5#4 then some 5 else if n = 6#4 then some 6 else none := by
  obtain ⟨n, hn⟩ := n
  interval_cases n <;> rfl

theorem decodeEmbedded_envelopeByte (n : BitVec 4) (r : Byte) :
    envelopeByte (decodeEmbedded n r) = if n = 5#4 then some 5 else if n = 6#4 then some 6 else none := by
  obtain ⟨n, hn⟩ := n
  interval_cases n <;> rfl

theorem decodeWave_envelopeByte (l r : Byte) :
    envelopeByte (decodeWave l r) = if l = 0xF5#8 then some 5 else if l = 0xF6#8 then some 6 else none := by
  by_cases hcommand : 0xF0#8 ≤ l ∧ l ≠ 0xFF#8
  · have hdecode : decodeWave l r = decodeEmbedded (l.setWidth 4) r := by
      unfold decodeWave
      rw [if_neg (by bv_omega), if_neg (by bv_omega), if_neg (by bv_omega), if_neg (by bv_omega), if_neg hcommand.2]
    rw [hdecode, decodeEmbedded_envelopeByte]
    exact if_congr (by bv_omega) rfl (if_congr (by bv_omega) rfl rfl)
  · rw [if_neg (by bv_omega), if_neg (by bv_omega)]
    unfold decodeWave
    split_ifs with _ _ _ hplain hjump
    · rfl
    · rfl
    · rfl
    · rfl
    · rfl
    · exact absurd ⟨BitVec.not_lt.mp hplain, hjump⟩ hcommand

/-- The code of the command, from the envelope byte that the lemmas above give it. -/
theorem code_of_envelopeByte {w : Nat} {x a b : BitVec w} {k : Fin 7}
    (h : (if x = a then some 5 else if x = b then some 6 else none) = some k) :
    (k = 5 ∨ k = 6) ∧ x = if k = 5 then a else b := by
  split_ifs at h with ha hb
  · obtain rfl : 5 = k := Option.some.inj h
    exact ⟨.inl rfl, ha⟩
  · obtain rfl : 6 = k := Option.some.inj h
    exact ⟨.inr rfl, hb⟩

/-! ## The phases of a channel's step (R308) -/

section
variable {s : State}

/-- The envelope bytes that the phase may write of the channel being stepped. -/
abbrev OwnEnvelope (s : State) (k : Fin 7) : Prop := (k = 5 ∨ k = 6) ∧ WritesEnvelope s.chan k s

/-- A note start writes both envelope bytes (R177). -/
theorem microStep_writesOwn_noteStart (h : s.phase = .noteStart) : WritesOwn (OwnEnvelope s) s (microStep s) := by
  have hfirst := (perform_firstwave_spec (s.instrByte s.cur.instr .firstwave) s).2
  obtain ⟨hplace, hothers, -, -, -, -, -, -, -, -, -, himage⟩ :=
    noteLoads_spec (perform (decodeFirstwave (s.instrByte s.cur.instr .firstwave)) s)
  have hloads := WritesOwn.of_envelope hplace hothers himage
  rw [microStep_noteStart h]
  exact (((WritesOwn.of_onlyChannel hfirst).trans hloads).trans (goto_writesOwn _ _ _)).imp fun k hk =>
    ⟨hk, .inr (.inl ⟨h, rfl⟩)⟩

/-- The dispatch of `SAD` or `SSR` writes its envelope byte (R205, R206). -/
theorem microStep_writesOwn_dispatch (h : s.phase = .dispatch) : WritesOwn (OwnEnvelope s) s (microStep s) := by
  have hperform := perform_writesOwn (f := .cmd)
    (decode_format (bs := [s.cur.newcommand.setWidth 8, s.cur.newcmddata]) rfl) rfl s
  rw [microStep_dispatch h]
  refine (hperform.trans (.of_onlyChannel (tick0End_spec _).2)).imp fun k hk => ?_
  obtain ⟨hk, hcommand⟩ := code_of_envelopeByte ((decodeCmd_envelopeByte ..).symm.trans hk)
  exact ⟨hk, .inr (.inr (.inl ⟨h, rfl, hcommand⟩))⟩

/-- The embedded form of `SAD` or `SSR` writes its envelope byte (R245, R246). -/
theorem microStep_writesOwn_waveExec (h : s.phase = .waveExec) : WritesOwn (OwnEnvelope s) s (microStep s) := by
  rw [microStep_waveExec h]
  split_ifs with hptr
  · exact goto_writesOwn _ s _
  have hperform := perform_writesOwn (f := .wave)
    (decode_format (bs := [s.left .wave s.cur.wavePtr, s.right .wave s.cur.wavePtr]) rfl) rfl s
  refine hperform.imp fun k hk => ?_
  obtain ⟨hk, hentry⟩ := code_of_envelopeByte ((decodeWave_envelopeByte ..).symm.trans hk)
  exact ⟨hk, .inr (.inr (.inr (.inl ⟨h, rfl, hptr, hentry⟩)))⟩

/-- The bits 7 and 6 of a gate-timer byte are clear if each of them is (R106). -/
theorem and_c0_eq_zero {g : Byte} (h6 : g &&& 0x40#8 = 0x00#8) (h7 : g &&& 0x80#8 = 0x00#8) :
    g &&& 0xC0#8 = 0x00#8 := by
  have hor : 0xC0#8 = 0x40#8 ||| 0x80#8 := rfl
  rw [hor, BitVec.and_or_distrib_left, h6, h7]
  rfl

/-- The fetch of a row writes the image in a hard restart only (R180). -/
theorem microStep_regAt_of_no_restart (h : s.phase = .getNewNotes)
    (hpresent : ¬ rowAbsent s.cur.pattrow (s.pattLen s.cur.pattnum) = true) {k : Fin 7} (hk : k = 5 ∨ k = 6)
    (hnone : ¬ WritesEnvelope s.chan k s) : (microStep s).regAt (regIdx s.chan k) = s.regAt (regIdx s.chan k) := by
  let x := s.ch s.chan
  let y := (latchRow s).ch s.chan
  let n := s.pattByte x.pattnum x.pattrow .note
  let g := (latchRow s).instrByte y.instr .gatetimer
  have hlatched : y = _ := modCur_ch_self ..
  have hbyte : g = s.instrByte y.instr .gatetimer := congrArg (Memory.read · _) (modCur_mem ..)
  have hreg (a : Fin 25) : (latchRow s).regAt a = s.regAt a := modCur_regAt ..
  have hnorestart : ¬ (IsNoteByte n ∧ y.LeadsIn g ∧ g &&& 0x80#8 = 0x00#8) := by
    rintro ⟨⟨-, hlow, hhigh⟩, ⟨hcommand, h6⟩, h7⟩
    have hflags := and_c0_eq_zero h6 h7
    rw [hbyte, hlatched] at hflags
    rw [hlatched] at hcommand
    exact hnone (.inr (.inr (.inr (.inr
      ⟨h, rfl, mt (rowAbsent_iff ..).mpr hpresent, hlow, hhigh, hcommand, hflags⟩))))
  obtain ⟨-, had, hsr⟩ := perform_note_spec n (latchRow s)
  rw [latchRow_chan] at had hsr
  rw [microStep_getNewNotes h, if_neg hpresent, goto_regAt]
  rcases hk with rfl | rfl
  · exact (had.trans (if_neg hnorestart)).trans (hreg _)
  · exact (hsr.trans (if_neg hnorestart)).trans (hreg _)

/-- The fetch of a row writes the envelope bytes where it restarts them (R180). -/
theorem microStep_writesOwn_getNewNotes (h : s.phase = .getNewNotes) : WritesOwn (OwnEnvelope s) s (microStep s) := by
  by_cases habsent : rowAbsent s.cur.pattrow (s.pattLen s.cur.pattnum) = true
  · rw [microStep_getNewNotes h, if_pos habsent]
    exact (modCur_writesOwn _ s _).trans (goto_writesOwn _ _ _)
  have hframe : WritesOwn (fun k => k = 5 ∨ k = 6) s (microStep s) := by
    obtain ⟨⟨-, hplace, hothers, -, -, himage, -⟩, -⟩ :=
      fetchedRow_frame (s.pattByte s.cur.pattnum s.cur.pattrow .note) s
    rw [microStep_getNewNotes h, if_neg habsent]
    exact (WritesOwn.of_envelope hplace hothers himage).trans (goto_writesOwn _ _ _)
  obtain ⟨hchan, himage, hothers⟩ := hframe
  refine ⟨hchan, fun a ha => ?_, hothers⟩
  by_cases hown : ∃ k, (k = 5 ∨ k = 6) ∧ a = regIdx s.chan k
  · obtain ⟨k, hk, rfl⟩ := hown
    exact microStep_regAt_of_no_restart h habsent hk fun hw => ha k ⟨hk, hw⟩ rfl
  · exact himage a fun k hk he => hown ⟨k, hk, he⟩

/-- The effects of the latched command update the channel being stepped (R265, R266). -/
theorem microStep_tickNEffects_eq (h : s.phase = .tickNEffects) :
    ∃ y, microStep s = (s.setCh s.chan y).goto .pulseExec := by
  by_cases h0 : (s.ch s.chan).command = 0#4
  · exact ⟨_, effects_of_instrument h h0⟩
  by_cases hslide : (s.ch s.chan).command = 1#4 ∨ (s.ch s.chan).command = 2#4
  · exact ⟨_, effects_of_portamento h hslide⟩
  obtain ⟨h1, h2⟩ := not_or.mp hslide
  by_cases h3 : (s.ch s.chan).command = 3#4
  · exact ⟨_, effects_of_tonePorta h h3⟩
  by_cases h4 : (s.ch s.chan).command = 4#4
  · exact ⟨_, effects_of_latched_vibrato h h4⟩
  exact ⟨_, effects_of_unlatched h h0 h1 h2 h3 h4⟩

/-- An entry of a table without commands writes no image byte. -/
theorem perform_entry_writesOwn (w : Fin 7 → Prop) {f : Format} {l r : Byte} {i : Instr} (hd : decode f [l, r] = .ok i)
    (hf : f = .pulse ∨ f = .filter) (s : State) : WritesOwn w s (perform i s) := by
  have hi := decode_format hd
  have hnone : envelopeByte i = none := by
    cases i with
    | sad | ssr | wxSad | wxSsr => cases hi; simp at hf
    | _ => rfl
  refine (perform_writesOwn hi (by rcases hf with rfl | rfl <;> rfl) s).imp fun k hk => ?_
  rw [hnone] at hk
  cases hk

/-- Every phase between the shared write-out and the write-out of a channel writes of the image the envelope bytes of
the channel being stepped that R308 lists for it. -/
theorem microStep_writesOwn (hp : s.phase ∉ [.idle, .actions, .sharedOut, .nextChannel]) :
    WritesOwn (OwnEnvelope s) s (microStep s) := by
  cases h : s.phase with
  | idle | actions | sharedOut | nextChannel => simp [h] at hp
  | filter =>
    rw [microStep_filter h]
    exact .ite (goto_writesOwn _ s _) (perform_entry_writesOwn _ (f := .filter) rfl (.inr rfl) s)
  | enter => rw [microStep_enter h]; exact .of_onlyChannel (enterChannel_spec s).2.1
  | tickN =>
    rw [microStep_tickN h]
    refine WritesOwn.trans ?_ (goto_writesOwn _ _ _)
    by_cases hw : 0x80#8 ≤ (s.ch s.chan).tick
    · exact .of_onlyChannelOrRaise (tickN_of_wrapped hw).2.1
    · rw [tickN_of_not_wrapped hw]; exact .refl _ s
  | tick0 =>
    obtain ⟨b, hend⟩ := endOfPattern_frame s
    rw [microStep_tick0 h]
    exact .of_onlyChannelOrRaise (hend.trans (tick0_spec s).2.1)
  | noteStart => exact microStep_writesOwn_noteStart h
  | dispatch => exact microStep_writesOwn_dispatch h
  | waveExec => exact microStep_writesOwn_waveExec h
  | tickNEffects =>
    obtain ⟨y, hy⟩ := microStep_tickNEffects_eq h
    rw [hy]
    exact .of_onlyChannel (setCh_goto_onlyChannel s y _)
  | pulseExec =>
    rw [microStep_pulseExec h]
    exact .ite (afterPulse_writesOwn _ s) (perform_entry_writesOwn _ (f := .pulse) rfl (.inl rfl) s)
  | getNewNotes => exact microStep_writesOwn_getNewNotes h

end

end Sys2Proof.Machine
end

section
/-! SUPPORT. The envelope bytes between the rules that write them, and the image that a whole tick leaves (R305 to
R308). -/

namespace Sys2Proof.Machine

/-! ## The envelope bytes (R308) -/

section
variable {s : State} {c : Chan} {k : Fin 7}

/-- Only a Pause and a Stop write the image at the top of a tick (R141, R142). -/
theorem microStep_reg_of_actions (h : s.phase = .actions) (hnone : ¬ (s.action = 2#2 ∨ s.action = 3#2)) :
    (microStep s).reg = s.reg := by
  obtain ⟨hpause, hstop⟩ := not_or.mp hnone
  rw [microStep_actions h, perform_action, if_neg hpause, if_neg hstop, goto_reg]
  split_ifs
  · by_cases hempty : s.songLen = 0x00#8
    · rw [startSong_of_empty (s := { s with action := 0#2 }) hempty]
    · obtain ⟨-, -, -, -, -, -, -, hreg, -⟩ := startSong_spec (s := { s with action := 0#2 }) hempty
      exact hreg
  · rfl

/-- A phase that is none of the rules of R308 for an envelope byte leaves it alone. -/
theorem microStep_envelope (hk : k = 5 ∨ k = 6) (hnone : ¬ WritesEnvelope c k s) :
    (microStep s).regAt (regIdx c k) = s.regAt (regIdx c k) := by
  have hle : ¬ k ≤ 4 := by omega
  by_cases hidle : s.phase = .idle
  · rw [microStep_idle hidle]
  by_cases hactions : s.phase = .actions
  · have hreg := microStep_reg_of_actions hactions fun h => hnone (.inl ⟨hactions, h⟩)
    exact sameImage_of_reg hreg _ List.not_mem_nil
  by_cases hshared : s.phase = .sharedOut
  · obtain ⟨-, -, -, -, himage, -⟩ := writeShared_onlyImage s
    rw [microStep_sharedOut hshared]
    exact himage _ fun hmem => regIdx_ne_of_mem_sharedBytes c k hmem rfl
  by_cases hnext : s.phase = .nextChannel
  · obtain ⟨-, -, -, -, himage, -⟩ := writeChannel_onlyImage s.chan s
    rw [microStep_nextChannel hnext, nextChannel_eq]
    refine himage _ fun hmem => ?_
    obtain ⟨j, hj, he⟩ := (mem_channelBytes_iff ..).mp hmem
    exact hle (((regIdx_inj_iff ..).mp he).2 ▸ hj)
  obtain ⟨-, himage, -⟩ := microStep_writesOwn (s := s) (by simp [hidle, hactions, hshared, hnext])
  refine himage _ fun j hj he => ?_
  obtain ⟨rfl, rfl⟩ := (regIdx_inj_iff ..).mp he
  exact hnone hj.2

theorem tickAt_envelope (hk : k = 5 ∨ k = 6) (hnone : ∀ n, ¬ WritesEnvelope c k (tickAt n s)) (n : Nat) :
    (tickAt n s).regAt (regIdx c k) = s.regAt (regIdx c k) := by
  induction n with
  | zero => rfl
  | succ n ih => rw [tickAt_succ, microStep_envelope hk (hnone n), ih]

end

/-- A host operation on a channel that updates its registers writes no image byte. -/
theorem onChannel_modCh_image (ch : BitVec 2) (f : Channel → Channel) (s : State) :
    SameImageBut [] s (onChannel ch (fun c t => t.modCh c f) s) := by
  unfold onChannel
  cases chanOf ch with
  | none => exact fun _ _ => rfl
  | some c => exact fun a _ => modCh_regAt s c f a

/-- Settles O50: phase by phase `microStep_envelope`; the host operations update a channel or a control register. -/
theorem envelopeBytesKeepTheirValue : Obligations.EnvelopeBytesKeepTheirValue := by
  refine ⟨fun s c k hidle hr hk hnone => ⟨_, step_inside_tick hr hidle, microStep_envelope hk hnone⟩,
    fun s c k hidle hk hnone => ⟨runTick s, if_pos hidle, ?_⟩, fun s i hidle hi htick htest => ?_⟩
  · rw [runTick_eq_tickAt]
    exact tickAt_envelope hk hnone 37
  · cases i with
    | hTick => exact absurd rfl htick
    | hTestnote n ins ch => exact absurd rfl (htest n ins ch)
    | hAction | hSetloop => exact ⟨_, if_pos hidle, fun _ _ => rfl⟩
    | hRelease ch => exact ⟨_, if_pos hidle, onChannel_modCh_image ch _ s⟩
    | hActive ch b => exact ⟨_, if_pos hidle, onChannel_modCh_image ch _ s⟩
    | hSetstart ch order row => exact ⟨_, if_pos hidle, onChannel_modCh_image ch _ s⟩
    | _ => cases hi

/-! ## The phases before the shared write-out (R140) -/

theorem phaseAfter_filter (s : State) : phaseAfter .filter s = .filter ∨ phaseAfter .filter s = .sharedOut :=
  ite_eq_or_eq ..

/-- The shared write-out comes after the action and at most two steps of the filter walker. -/
theorem exists_sharedOut (s : State) : ∃ n ≤ 3, (tickAt n s).phase = .sharedOut := by
  have hfirst : (tickAt 1 s).phase = .filter := by rw [tickAt_one, goto_phase]
  have hnext (n : Nat) (h : (tickAt n s).phase = .filter) :
      (tickAt (n + 1) s).phase = .filter ∨ (tickAt (n + 1) s).phase = .sharedOut := by
    rw [tickAt_succ, microStep_phase h]
    exact phaseAfter_filter _
  rcases hnext 1 hfirst with hsecond | hshared
  · rcases hnext 2 hsecond with hthird | hshared
    · have hleft := tickAt_phasesLeft 3 s
      rw [hthird, phasesLeft] at hleft
      omega
    · exact ⟨3, by decide, hshared⟩
  · exact ⟨2, by decide, hshared⟩

/-! ## The image of a tick so far (R305 to R307) -/

/-- The phases of the channels' steps, and the end of the tick. -/
def PastSharedOut (p : Phase) : Prop := p ≠ .actions ∧ p ≠ .filter ∧ p ≠ .sharedOut

theorem phaseAfter_pastSharedOut {p : Phase} (h : PastSharedOut p) (s : State) : PastSharedOut (phaseAfter p s) := by
  obtain ⟨hactions, hfilter, hshared⟩ := h
  unfold PastSharedOut
  cases p with
  | actions => exact absurd rfl hactions
  | filter => exact absurd rfl hfilter
  | sharedOut => exact absurd rfl hshared
  | idle | tickN | noteStart | tickNEffects | getNewNotes => simp
  | enter | tick0 | dispatch | waveExec | pulseExec | nextChannel =>
    simp only [phaseAfter, phaseAfterPulse]
    split_ifs <;> decide

section
variable {s u : State}

/-- A phase of a channel's step writes no image byte but that channel's, and nothing that the write-out of another one
reads. -/
theorem microStep_othersKept (hidle : s.phase ≠ .idle) (hpast : PastSharedOut s.phase) :
    (∀ a, (∀ k, a ≠ regIdx s.chan k) → (microStep s).regAt a = s.regAt a) ∧
    ∀ c, c ≠ s.chan → ((microStep s).ch c).output = (s.ch c).output := by
  obtain ⟨hactions, hfilter, hshared⟩ := hpast
  by_cases hnext : s.phase = .nextChannel
  · obtain ⟨-, -, -, hch⟩ := microStep_writeOut (.inr hnext)
    obtain ⟨-, -, -, -, himage, -⟩ := writeChannel_onlyImage s.chan s
    refine ⟨fun a ha => ?_, fun c _ => congrArg Channel.output (hch c)⟩
    rw [microStep_nextChannel hnext, nextChannel_eq]
    refine himage a fun hmem => ?_
    obtain ⟨k, -, he⟩ := (mem_channelBytes_iff ..).mp hmem
    exact ha k he
  · obtain ⟨-, himage, hothers⟩ := microStep_writesOwn (s := s) (by simp [hidle, hactions, hshared, hnext])
    exact ⟨fun a ha => himage a fun k _ => ha k, hothers⟩

/-- The shared bytes show the registers of `u`, and the channels that the tick is through with show theirs. -/
def ShownSoFar (u s : State) : Prop :=
  PastSharedOut s.phase ∧ ShowsShared u s ∧
  ∀ c, c.idx < channelsDone s.phase s.chan → ShowsChannel (s.ch c) c s

theorem shownSoFar_sharedOut (h : u.phase = .sharedOut) : ShownSoFar u (microStep u) := by
  refine ⟨?_, ?_, fun c hc => ?_⟩
  · rw [microStep_phase h, phaseAfter, PastSharedOut]; decide
  · rw [microStep_sharedOut h]
    exact writeShared_shows u
  · rw [channelsDone_microStep h (by decide)] at hc
    exact absurd hc (Nat.not_lt_zero _)

/-- Within the step of a channel the channels before it are done. -/
theorem channelsDone_of_pastSharedOut {p : Phase} (hidle : p ≠ .idle) (h : PastSharedOut p) (c : Chan) :
    channelsDone p c = c.idx := by
  obtain ⟨hactions, hfilter, hshared⟩ := h
  cases p with
  | idle => exact absurd rfl hidle
  | actions => exact absurd rfl hactions
  | filter => exact absurd rfl hfilter
  | sharedOut => exact absurd rfl hshared
  | _ => rfl

/-- After its write-out a channel is shown (R305, R306). -/
theorem microStep_showsChannel (hnext : s.phase = .nextChannel) :
    ShowsChannel ((microStep s).ch s.chan) s.chan (microStep s) := by
  obtain ⟨-, -, -, hch⟩ := microStep_writeOut (.inr hnext)
  refine (writeChannel_shows s.chan s).trans (congrArg Channel.output (hch s.chan)) fun a _ => ?_
  rw [microStep_nextChannel hnext, nextChannel_eq]
  rfl

theorem microStep_shownSoFar (hidle : s.phase ≠ .idle) (h : ShownSoFar u s) : ShownSoFar u (microStep s) := by
  obtain ⟨hpast, hshared, hshown⟩ := h
  obtain ⟨himage, houtput⟩ := microStep_othersKept hidle hpast
  refine ⟨?_, hshared.trans fun a ha => himage a fun k he => ?_, fun c hc => ?_⟩
  · rw [microStep_phase rfl]
    exact phaseAfter_pastSharedOut hpast s
  · exact regIdx_ne_of_mem_sharedBytes s.chan k ha he.symm
  · have hdone := channelsDone_of_pastSharedOut hidle hpast s.chan
    rw [channelsDone_microStep rfl hidle, hdone] at hc
    by_cases hown : c = s.chan
    · have hnext : s.phase = .nextChannel := by_contra fun hne => by
        rw [if_neg hne, hown] at hc
        exact lt_irrefl _ hc
      exact hown ▸ microStep_showsChannel hnext
    · have hbefore : c.idx < s.chan.idx := by
        have hne : c.idx ≠ s.chan.idx := mt idx_inj.mp hown
        split_ifs at hc <;> omega
      refine (hshown c (hdone ▸ hbefore)).trans (houtput c hown) fun a ha => himage a fun j he => hown ?_
      obtain ⟨k, -, rfl⟩ := (mem_channelBytes_iff ..).mp ha
      exact ((regIdx_inj_iff ..).mp he).1

theorem tickAt_shownSoFar {n : Nat} (h : (tickAt n s).phase = .sharedOut) {m : Nat} (hm : n + 1 ≤ m) :
    ShownSoFar (tickAt n s) (tickAt m s) := by
  induction m, hm using Nat.le_induction with
  | base => rw [tickAt_succ]; exact shownSoFar_sharedOut h
  | succ m _ ih =>
    rw [tickAt_succ]
    by_cases hidle : (tickAt m s).phase = .idle
    · rwa [microStep_idle hidle]
    · exact microStep_shownSoFar hidle ih

/-- At the end of a tick all three channels are shown, and the shared registers as the filter walker left them. -/
theorem runTick_shows (s : State) :
    ∃ n ≤ 3, (tickAt n s).phase = .sharedOut ∧ ShowsShared (tickAt n s) (runTick s) ∧
      ∀ c, ShowsChannel ((runTick s).ch c) c (runTick s) := by
  obtain ⟨n, hn, hphase⟩ := exists_sharedOut s
  obtain ⟨-, hshared, hshown⟩ := tickAt_shownSoFar hphase (Nat.le_trans (Nat.succ_le_succ hn) (by decide : 4 ≤ 37))
  rw [← runTick_eq_tickAt] at hshared hshown
  rw [channelsDone_runTick] at hshown
  exact ⟨n, hn, hphase, hshared, fun c => hshown c (Nat.lt_succ_of_le (idx_le_two c))⟩

/-- Settles O49: each byte is written by its write-out, and `ShownSoFar` holds from the shared one to the end of the
tick. -/
theorem tickWritesTheImage : Obligations.TickWritesTheImage := by
  intro s hidle
  have htick : exec .hTick s = .next (runTick s) := if_pos hidle
  obtain ⟨n, hn, hphase, hshared, hshown⟩ := runTick_shows s
  generalize runTick s = t at *
  exact ⟨t, htick, ⟨n, hn, hphase, hshared⟩, hshown⟩

end

end Sys2Proof.Machine
end

section
/-! SUPPORT. Raising a cause (R330, R331), and what no instruction of a song reaches (R340). -/

namespace Sys2Proof.Machine

/-! ## Raising a cause (R330, R331) -/

theorem getLsbD_or_twoPow {w : Nat} (x : BitVec w) (i : Nat) {j : Nat} (hj : j < w) :
    (x ||| BitVec.twoPow w i).getLsbD j = (x.getLsbD j || decide (j = i)) := by
  simp [hj]

/-- Settles O15: the bit of a cause is the power of two that its code names. -/
theorem fatalSetsItsBitAndPostsStop : Obligations.FatalSetsItsBitAndPostsStop := by
  intro k s n
  have hset : (raiseFatal k s).fatal = s.fatal ||| BitVec.twoPow 7 (n - 1) := by cases k <;> rfl
  exact ⟨rfl, fun j hj => hset ▸ getLsbD_or_twoPow s.fatal (n - 1) hj, rfl⟩

/-! ## What is withheld from a song (R340) -/

/-- The state with everything blanked that a song may write outside the start positions and the mute flags: the
channels, the shared registers, the image and the phase. What is left is withheld from a song, but for what a raised
cause does to `FATAL` and the mailbox (R331). -/
def State.withheld (s : State) : State :=
  { State.reset with
    playing := s.playing, loopPattern := s.loopPattern, mem := s.mem, freqRom := s.freqRom
    requests := s.requests, chan := s.chan, action := s.action, fatal := s.fatal }

theorem registers_of_withheld_eq {t u : State} (h : t.withheld = u.withheld) :
    t.playing = u.playing ∧ t.loopPattern = u.loopPattern ∧ t.mem = u.mem ∧ t.freqRom = u.freqRom ∧
    t.requests = u.requests ∧ t.chan = u.chan ∧ t.action = u.action ∧ t.fatal = u.fatal := by
  have hkept : ∀ {α : Type} (f : State → α), (∀ v : State, f v.withheld = f v) → f t = f u := fun f hf => by
    rw [← hf t, h, hf u]
  exact ⟨hkept State.playing fun _ => rfl, hkept State.loopPattern fun _ => rfl, hkept State.mem fun _ => rfl,
    hkept State.freqRom fun _ => rfl, hkept State.requests fun _ => rfl, hkept State.chan fun _ => rfl,
    hkept State.action fun _ => rfl, hkept State.fatal fun _ => rfl⟩

/-- What is withheld is as before, but for one raised cause at most. -/
def State.RaisedOnce (w v : State) : Prop := v = w ∨ ∃ k, v = raiseFatal k w

theorem State.RaisedOnce.kept {w v u : State} (h : w.RaisedOnce v) (hu : u = v) : w.RaisedOnce u := hu ▸ h

section
variable (s : State)

@[simp] theorem setReg_withheld (a : Fin 25) (v : Byte) : (s.setReg a v).withheld = s.withheld := rfl

@[simp] theorem goto_withheld (p : Phase) : (s.goto p).withheld = s.withheld := rfl

@[simp] theorem modCh_withheld (c : Chan) (f : Channel → Channel) : (s.modCh c f).withheld = s.withheld := by
  cases c <;> rfl

@[simp] theorem modCur_withheld (f : Channel → Channel) : (s.modCur f).withheld = s.withheld := modCh_withheld s _ f

/-- An instruction that is an update of the channel being stepped and nothing else. -/
theorem settled_modCur_withheld (f : Channel → Channel) : (settled s (.next (s.modCur f))).withheld = s.withheld :=
  modCur_withheld s f

theorem ite_withheld {s t u : State} {p : Prop} [Decidable p] (ht : t.withheld = s.withheld)
    (hu : u.withheld = s.withheld) : (if p then t else u).withheld = s.withheld := by
  split_ifs
  · exact ht
  · exact hu

/-! ## The shared operations -/

theorem setFilterControl_withheld (d : Byte) : (setFilterControl d s).withheld = s.withheld := rfl

theorem setMasterVolume_withheld (d : Byte) : (setMasterVolume d s).withheld = s.withheld := by
  rcases setMasterVolume_cases d s with ⟨_, h⟩ | ⟨_, h⟩ <;> rw [h]
  rfl

theorem setAllTempos_withheld (v : Byte) : (setAllTempos v s).withheld = s.withheld := rfl

theorem fnk_withheld (d : Byte) : (perform (.fnk d) s).withheld = s.withheld :=
  (setAllTempos_withheld _ _).trans (ite_withheld (s := s) rfl rfl)

theorem tmp_withheld (d : Byte) : (perform (.tmp d) s).withheld = s.withheld :=
  ite_withheld (modCur_withheld s _) (setAllTempos_withheld s _)

theorem raiseFatalIf_withheld (b : Bool) (k : Cause) : s.withheld.RaisedOnce (raiseFatalIf b k s).withheld := by
  rcases raiseFatalIf_cases b k s with ⟨_, h⟩ | ⟨_, h⟩ <;> rw [h]
  · exact .inr ⟨k, rfl⟩
  · exact .inl rfl

theorem loadWavePtr_withheld (c : Chan) (p : Byte) : s.withheld.RaisedOnce (loadWavePtr c p s).withheld :=
  modCh_withheld s c _ ▸ raiseFatalIf_withheld _ _ _

theorem loadPulsePtr_withheld (c : Chan) (p : Byte) : s.withheld.RaisedOnce (loadPulsePtr c p s).withheld :=
  modCh_withheld s c _ ▸ raiseFatalIf_withheld _ _ _

theorem loadFilterPtr_withheld (p : Byte) : s.withheld.RaisedOnce (loadFilterPtr p s).withheld :=
  raiseFatalIf_withheld { s with filtPtr := p, filtTime := 0x00#8 } _ _

/-! ## Notes -/

theorem leadIn_withheld (c : Chan) (g : Byte) : (leadIn c g s).withheld = s.withheld := by
  rcases leadIn_cases c g s with ⟨_, h⟩ | ⟨_, _, h⟩ | ⟨_, _, h⟩ <;> simp [h, setEnvelope]

theorem nNote_withheld (n : Byte) : (perform (.nNote n) s).withheld = s.withheld :=
  ite_withheld (modCur_withheld s _) ((leadIn_withheld _ _ _).trans (modCur_withheld s _))

/-! ## The walkers -/

theorem waveAdvance_withheld : (waveAdvance s).withheld = s.withheld := modCur_withheld s _

theorem wavePassCommand_withheld : (wavePassCommand s).withheld = s.withheld := waveAdvance_withheld s

theorem applyNote_withheld (n : BitVec 7) : (applyNote n s).withheld = s.withheld := modCur_withheld s _

/-- A passed entry and its note adjustment (R236, R238). -/
theorem wavePass_withheld (r : Byte) : (noteAdjust r (waveAdvance s)).withheld = s.withheld := by
  rw [← waveAdvance_withheld s]
  rcases noteAdjust_cases r (waveAdvance s) with ⟨_, h⟩ | ⟨_, h⟩ | ⟨_, h⟩ <;> rw [h]
  · exact goto_withheld _ _
  · exact applyNote_withheld _ _
  · exact applyNote_withheld _ _

theorem wDelay_withheld (n : BitVec 4) (r : Byte) : (perform (.wDelay n r) s).withheld = s.withheld :=
  ite_withheld (wavePass_withheld s r) (modCur_withheld s _)

theorem afterPulse_withheld : (afterPulse s).withheld = s.withheld := rfl

theorem pJump_withheld (r : Byte) : s.withheld.RaisedOnce (perform (.pJump r) s).withheld := by
  have hjump := raiseFatalIf_withheld (s.modCur fun x => { x with pulsePtr := jumpTarget .pulse r s })
    (jumpChained .pulse r s) .jumpIntoJumpPulse
  rw [modCur_withheld] at hjump
  exact hjump.kept (ite_withheld (afterPulse_withheld _) (goto_withheld _ _))

theorem filterModulate_withheld (r : Byte) : (filterModulate r s).withheld = s.withheld := by
  rcases filterModulate_cases r s with ⟨_, h⟩ | ⟨_, _, h⟩ | ⟨_, _, h⟩ <;> rw [h] <;> rfl

/-- A filter entry's own part, then its modulation step (R290). -/
theorem filterEntry_withheld (r : Byte) {f : State → State} (hf : (f s).withheld = s.withheld) :
    ((filterModulate r (filterStart f s)).goto .sharedOut).withheld = s.withheld :=
  (filterModulate_withheld _ r).trans (ite_withheld hf rfl)

theorem absorbCut_withheld : (absorbCut s).withheld = s.withheld := ite_withheld rfl rfl

/-! ## The instructions -/

/-- Every instruction of a song reaches what is withheld from it by raising one cause at most (R340). -/
theorem perform_withheld {i : Instr} {f : Format} (hi : i.format = some f) (hf : f ≠ .action) :
    s.withheld.RaisedOnce (perform i s).withheld := by
  cases i with
  | wxNop | wxSwp | wxFnk => exact .inr ⟨.illegalWaveCommand, wavePassCommand_withheld _⟩
  | swp => exact loadWavePtr_withheld s _ _
  | spp => exact loadPulsePtr_withheld s _ _
  | sfp => exact loadFilterPtr_withheld s _
  | wxSpp => exact (loadPulsePtr_withheld s _ _).kept (wavePassCommand_withheld _)
  | wxSfp => exact (loadFilterPtr_withheld s _).kept (wavePassCommand_withheld _)
  | wJump r => exact modCur_withheld s _ ▸ raiseFatalIf_withheld _ _ _
  | pJump r => exact pJump_withheld s r
  | fJump r => exact raiseFatalIf_withheld { s with filtPtr := jumpTarget .filter r s } _ _
  | nRest | nNone | fwKeep | naKeep | sad | ssr | sfc | sco | sFunk => exact .inl rfl
  | nKoff | nKon | fwGoff | fwGon | fwWave | nop | pup | pdn | tpo | vib | swv | sSlide | sVib =>
    exact .inl (settled_modCur_withheld s _)
  | nNote n => exact .inl (nNote_withheld s n)
  | smv d => exact .inl (setMasterVolume_withheld s d)
  | fnk d => exact .inl (fnk_withheld s d)
  | tmp d => exact .inl (tmp_withheld s d)
  | wKeep r => exact .inl (wavePass_withheld s r)
  | wDelay n r => exact .inl (wDelay_withheld s n r)
  | wWave _ r | wMute _ r => exact .inl ((wavePass_withheld _ r).trans (modCur_withheld s _))
  | wxPup | wxPdn | wxSwv | wxTpo | wxVib => exact .inl ((wavePassCommand_withheld _).trans (modCur_withheld s _))
  | wxSad | wxSsr => exact .inl ((wavePassCommand_withheld _).trans (setReg_withheld s _ _))
  | wxSfc d => exact .inl ((wavePassCommand_withheld _).trans (setFilterControl_withheld s d))
  | wxSco => exact .inl (wavePassCommand_withheld _)
  | wxSmv d => exact .inl ((wavePassCommand_withheld _).trans (setMasterVolume_withheld s d))
  | pHold | pMod | pSet => exact .inl ((afterPulse_withheld _).trans (modCur_withheld s _))
  | fCut r | fMod _ r => exact .inl (filterEntry_withheld s r rfl)
  | fType _ ctl => exact .inl (filterEntry_withheld s ctl (absorbCut_withheld _))
  | naRel | naAbs => exact .inl (applyNote_withheld s _)
  | aNone | aStart | aPause | aStop => exact absurd (Option.some.inj hi).symm hf
  | hTick | hAction | hTestnote | hRelease | hActive | hSetstart | hSetloop => cases hi

end

/-- Settles O14: what is withheld outside the channels by `State.RaisedOnce`, the start positions and the mute flags
by `KeepsSetup`. -/
theorem songInstructionsCannotReachControl : Obligations.SongInstructionsCannotReachControl := by
  intro i f s hi hf
  have hpause : i ≠ .aPause := by
    rintro rfl
    exact hf (Option.some.inj hi).symm
  have hsetup : KeepsSetup True s (perform i s) := perform_setup s i fun _ => hpause
  have hchannels : ∀ c, ((perform i s).ch c).startOrder = (s.ch c).startOrder ∧
      ((perform i s).ch c).startRow = (s.ch c).startRow ∧ ((perform i s).ch c).mute = (s.ch c).mute := fun c => by
    obtain ⟨hmute, hstart⟩ := hsetup.channels c
    exact ⟨(hstart trivial).1, (hstart trivial).2, hmute⟩
  refine ⟨_, exec_eq_perform i f hi s, ?_⟩
  rcases perform_withheld s hi hf with hkept | ⟨k, hraised⟩
  · obtain ⟨hplaying, hloop, hmem, hrom, hrequests, hchan, haction, hfatal⟩ := registers_of_withheld_eq hkept
    exact ⟨hplaying, hloop, hmem, hrom, hrequests, hchan, hchannels, .inl ⟨haction, hfatal⟩⟩
  · obtain ⟨hplaying, hloop, hmem, hrom, hrequests, hchan, haction, hfatal⟩ :=
      registers_of_withheld_eq (u := raiseFatal k s) hraised
    exact ⟨hplaying, hloop, hmem, hrom, hrequests, hchan, hchannels, .inr ⟨haction, k, hfatal⟩⟩

end Sys2Proof.Machine
end

section
/-! SUPPORT. The host operations on the registers of a channel (R114, R321 to R325). -/

namespace Sys2Proof.Machine

/-! ## The channel argument (R114) -/

theorem chanOf_eq_some_iff (ch : BitVec 2) (c : Chan) : chanOf ch = some c ↔ ch.toNat = c.idx := by
  refine ⟨fun h => ?_, fun h => ?_⟩
  · unfold chanOf at h
    split_ifs at h with h0 h1 h2 <;> cases h
    · exact congrArg BitVec.toNat h0
    · exact congrArg BitVec.toNat h1
    · exact congrArg BitVec.toNat h2
  · have hch : ch = BitVec.ofNat 2 c.idx := (ofNat_of_toNat h.symm).symm
    subst hch
    cases c <;> rfl

theorem onChannel_of_idx {ch : BitVec 2} {c : Chan} (h : ch.toNat = c.idx) (f : Chan → State → State) (s : State) :
    onChannel ch f s = f c s := by
  rw [onChannel, (chanOf_eq_some_iff ch c).mpr h]

/-- An operation on a channel acts on the one its argument names, or on none. -/
theorem onChannel_cases (ch : BitVec 2) (f : Chan → State → State) (s : State) :
    (∃ c : Chan, ch.toNat = c.idx ∧ onChannel ch f s = f c s) ∨
    ((∀ c : Chan, ch.toNat ≠ c.idx) ∧ onChannel ch f s = s) := by
  cases hch : chanOf ch with
  | some c =>
    have hidx := (chanOf_eq_some_iff ch c).mp hch
    exact .inl ⟨c, hidx, onChannel_of_idx hidx f s⟩
  | none =>
    refine .inr ⟨fun c hidx => ?_, by rw [onChannel, hch]⟩
    rw [(chanOf_eq_some_iff ch c).mpr hidx] at hch
    cases hch

theorem OnlyChannels.refl (s : State) : OnlyChannels s s := by
  obtain ⟨hphase, hplace, -, hframe⟩ := OnlyChannelOf.refl .c0 [] s
  exact ⟨hphase, hplace, hframe⟩

theorem modCh_onlyChannels (c : Chan) (f : Channel → Channel) (s : State) : OnlyChannels s (s.modCh c f) := by
  obtain ⟨hphase, hplace, -, hframe⟩ := modCh_onlyChannelOf c [] f s
  exact ⟨hphase, hplace, hframe⟩

/-- An update of the channel that the argument names. -/
theorem onChannel_modCh_spec (ch : BitVec 2) (f : Channel → Channel) (s : State) (c : Chan) :
    (onChannel ch (fun d t => t.modCh d f) s).ch c = (if ch.toNat = c.idx then f (s.ch c) else s.ch c) ∧
    OnlyChannels s (onChannel ch (fun d t => t.modCh d f) s) := by
  rcases onChannel_cases ch (fun d t => t.modCh d f) s with ⟨d, hd, he⟩ | ⟨hnone, he⟩ <;> rw [he]
  · have hnamed : ch.toNat = c.idx ↔ c = d := by
      rw [← chanOf_eq_some_iff, (chanOf_eq_some_iff ch d).mpr hd, Option.some.injEq, eq_comm]
    exact ⟨(modCh_ch s d c f).trans (if_congr hnamed.symm rfl rfl), modCh_onlyChannels d f s⟩
  · exact ⟨(if_neg (hnone c)).symm, .refl s⟩

/-- Settles O58: each is a `hostOp`, three of them on the channel that the argument names. -/
theorem hostRegisterWrites : Obligations.HostRegisterWrites := by
  intro s a ch b order row hidle
  refine ⟨if_pos hidle, if_pos hidle, ⟨_, if_pos hidle, onChannel_modCh_spec ch _ s⟩,
    ⟨_, if_pos hidle, onChannel_modCh_spec ch _ s⟩, _, if_pos hidle, fun c => ?_⟩
  have hrow : row &&& 0x7F#8 = BitVec.ofNat 8 (row.toNat % 128) := tempoValue_eq row
  rw [hrow]
  exact onChannel_modCh_spec ch _ s c

/-! ## The test note (R322) -/

theorem setWidth_gatetimerCount (g : Byte) : (gatetimerCount g).setWidth 8 = g &&& 0x3F#8 :=
  (BitVec.ofNat_toNat 8 (g.setWidth 6)).symm.trans (and_lowMask (w := 6) g (Nat.le_add_right 6 2)).symm

/-- What a test note runs, by the class of its byte (R102, R322). -/
theorem testNote_cases (n ins : Byte) (c : Chan) (s : State) :
    (n = 0xC2#8 ∧ testNote n ins c s = s) ∨
    (n ≠ 0xC2#8 ∧ IsNoteByte n ∧ testNote n ins c s = testNoteStart n ins c s) ∨
    (n ≠ 0xC2#8 ∧ ¬ IsNoteByte n ∧ testNote n ins c s = releaseNote c s) := by
  rcases decodeNote_cases n with ⟨hrest, hd⟩ | ⟨hoff, hd⟩ | ⟨hon, hd⟩ | ⟨hnote, hd⟩ | ⟨_, hon, hnote, hd⟩
  · exact .inr (.inr ⟨by simp [hrest], fun hnote => hnote.1 (.inl hrest), by simp only [testNote, hd]⟩)
  · exact .inr (.inr ⟨by simp [hoff], fun hnote => hnote.1 (.inr (.inl hoff)), by simp only [testNote, hd]⟩)
  · exact .inl ⟨hon, by simp only [testNote, hd]⟩
  · exact .inr (.inl ⟨fun hon => hnote.1 (.inr (.inr hon)), hnote, by simp only [testNote, hd]⟩)
  · exact .inr (.inr ⟨hon, hnote, by simp only [testNote, hd]⟩)

/-- A channel after a test note that is a note, `g` being the gate-timer byte of the instrument `i` (R322). -/
def Channel.testNoted (playing : Bool) (g n : Byte) (i : BitVec 6) (x : Channel) : Channel :=
  { x with
    gate := if g &&& 0x40#8 = 0x00#8 then 0xFE#8 else x.gate
    instr := i, newnote := n, nnPend := true
    tick := if playing = true then x.tick else (g &&& 0x3F#8) + 1#8
    gatetimer := if playing = true then x.gatetimer else g.setWidth 6 }

/-- What the note case of a test note writes: the lead-in, then the channel's registers. -/
theorem testNoteStart_spec (n ins : Byte) (c : Chan) (s : State) :
    let i := testInstr ins (s.ch c)
    let g := s.instrByte i .gatetimer
    let hardRestart := g &&& 0x40#8 = 0x00#8 ∧ g &&& 0x80#8 = 0x00#8
    let t := testNoteStart n ins c s
    OnlyChannelOf c [regIdx c 5, regIdx c 6] s t ∧
    t.regAt (regIdx c 5) = (if hardRestart then 0x0F#8 else s.regAt (regIdx c 5)) ∧
    t.regAt (regIdx c 6) = (if hardRestart then 0x00#8 else s.regAt (regIdx c 6)) ∧
    t.ch c = (s.ch c).testNoted s.playing g n i := by
  intro i g hardRestart t
  obtain ⟨hch, had, hsr, hframe⟩ := leadIn_spec c g s
  refine ⟨hframe.trans (modCh_onlyChannelOf ..), (modCh_regAt ..).trans had, (modCh_regAt ..).trans hsr,
    (modCh_ch_self ..).trans ?_⟩
  rw [hch, setWidth_gatetimerCount]
  rfl

/-- What a test note writes, by the class of its byte (R322). -/
theorem testNote_spec (n ins : Byte) (c : Chan) (s : State) :
    let x := s.ch c
    let i := testInstr ins x
    let g := s.instrByte i .gatetimer
    let hardRestart := IsNoteByte n ∧ g &&& 0x40#8 = 0x00#8 ∧ g &&& 0x80#8 = 0x00#8
    let t := testNote n ins c s
    OnlyChannelOf c [regIdx c 5, regIdx c 6] s t ∧
    t.regAt (regIdx c 5) = (if hardRestart then 0x0F#8 else s.regAt (regIdx c 5)) ∧
    t.regAt (regIdx c 6) = (if hardRestart then 0x00#8 else s.regAt (regIdx c 6)) ∧
    t.ch c =
      if n = 0xC2#8 then x
      else if IsNoteByte n then x.testNoted s.playing g n i
      else { x with gate := 0xFE#8 } := by
  intro x i g hardRestart t
  have hnoRestart (h : ¬ IsNoteByte n) : ¬ hardRestart := fun hr => h hr.1
  rcases testNote_cases n ins c s with ⟨hon, he⟩ | ⟨hon, hnote, he⟩ | ⟨hon, hnote, he⟩
  · have hnote : ¬ IsNoteByte n := fun h => h.1 (.inr (.inr hon))
    have hts : t = s := he
    rw [hts, if_neg (hnoRestart hnote), if_neg (hnoRestart hnote), if_pos hon]
    exact ⟨.refl .., rfl, rfl, rfl⟩
  · obtain ⟨hframe, had, hsr, hch⟩ := testNoteStart_spec n ins c s
    have hts : t = testNoteStart n ins c s := he
    have hhard : hardRestart ↔ g &&& 0x40#8 = 0x00#8 ∧ g &&& 0x80#8 = 0x00#8 := and_iff_right hnote
    rw [hts, if_neg hon, if_pos hnote]
    exact ⟨hframe, had.trans (if_congr hhard.symm rfl rfl), hsr.trans (if_congr hhard.symm rfl rfl), hch⟩
  · have hts : t = releaseNote c s := he
    rw [hts, if_neg (hnoRestart hnote), if_neg (hnoRestart hnote), if_neg hon, if_neg hnote]
    exact ⟨modCh_onlyChannelOf .., modCh_regAt .., modCh_regAt .., modCh_ch_self ..⟩

theorem exec_hTestnote {s : State} (hidle : s.phase = .idle) {ch : BitVec 2} {c : Chan} (hch : ch.toNat = c.idx)
    (n ins : Byte) : exec (.hTestnote n ins ch) s = .next (testNote n ins c s) :=
  (if_pos hidle).trans (congrArg Host.Outcome.next (onChannel_of_idx hch (testNote n ins) s))

end Sys2Proof.Machine

namespace Sys2Proof

open Machine

/-- Settles O59: `testNote_spec` for the channel that the argument names. -/
theorem testNote : Obligations.TestNote := by
  intro s n ins ch c hidle hch
  exact ⟨if_pos hidle, _, exec_hTestnote hidle hch n ins, testNote_spec n ins c s⟩

end Sys2Proof
end
